-- ==== Sys2Proof/Word.lean ====
section
/-! DEFINITION. The widths of the block: bytes, bus addresses, cycle values and command packets. -/

namespace Sys2Proof

/-- One byte of the bus or of the Backing Store (20_memory.md R61). -/
abbrev Byte := BitVec 8

/-- A CPU bus address (20_memory.md R60). -/
abbrev Addr := BitVec 16

/-- A value of the cycle counter (00_scope.md R12). -/
abbrev Cycle := BitVec 32

/-- A command packet (30_encoding.md R100). -/
abbrev Packet := BitVec 64

/-- The trigger time of a disarmed unit, `DISABLED` (00_scope.md R12). -/
abbrev disabled : Cycle := 0xFFFFFFFF#32

end Sys2Proof
end

