-- ==== Sys2Proof/Config.lean ====
section
/-! DEFINITION. What an implementation fixes: the timing parameters of 00_scope.md R9 and the reset-value
record of 42_scheduler.md R211, with the spec's defaults, and the free values of the model. The parameters are
carried by State as plain data and no command writes them, so that a claim holds for every value of them
(00_scope.md R9: "configuration fields a model takes as arguments"; log 8). -/

namespace Sys2Proof

/-- The reset-value parameter record `INIT` (42_scheduler.md R211), default all zero. -/
structure Init where
  IF   : BitVec 5 := 0
  IE   : BitVec 8 := 0
  TIMA : BitVec 8 := 0
  TMA  : BitVec 8 := 0
  TAC  : BitVec 3 := 0
  SB   : BitVec 8 := 0
  SC   : BitVec 8 := 0
  deriving DecidableEq, Repr

/-- The parameters of 00_scope.md R9, each with the default the rule gives it. Every default but
`lastLine` and `lycVisibleMax` is general knowledge of the spec's, not the source's (G1). -/
structure Params where
  /-- P_LAST_LINE -/
  lastLine : Nat := 153
  /-- P_LYC_VISIBLE_MAX -/
  lycVisibleMax : Nat := 143
  /-- P_LINE_CYCLES, `L` of 42_scheduler.md -/
  lineCycles : Nat := 456
  /-- P_FRAME_LINES; no formula of the spec reads it (log 23) -/
  frameLines : Nat := 154
  /-- P_FRAME_CYCLES, `F` of 42_scheduler.md -/
  frameCycles : Nat := 70224
  /-- P_LYC0_OFFSET -/
  lyc0Offset : Nat := 8
  /-- P_VBLANK_LINE -/
  vblankLine : Nat := 144
  /-- P_DIV_SHIFT -/
  divShift : Nat := 8
  /-- P_TIMA_PERIOD[0] -/
  timaPeriod0 : Nat := 1024
  /-- P_TIMA_PERIOD[1] -/
  timaPeriod1 : Nat := 16
  /-- P_TIMA_PERIOD[2] -/
  timaPeriod2 : Nat := 64
  /-- P_TIMA_PERIOD[3] -/
  timaPeriod3 : Nat := 256
  /-- P_SERIAL_BIT_SLOW -/
  serialBitSlow : Nat := 512
  /-- P_SERIAL_BIT_FAST -/
  serialBitFast : Nat := 16
  /-- P_DMA_BYTES -/
  dmaBytes : Nat := 160
  /-- P_DMA_BYTE_CYCLES -/
  dmaByteCycles : Nat := 4
  /-- P_DMA_START_DELAY -/
  dmaStartDelay : Nat := 4
  /-- P_REBASE_LIMIT -/
  rebaseLimit : Nat := 0x80000000
  /-- P_CGB_EXTBUS (20_memory.md R73) -/
  cgbExtBus : Bool := false
  /-- P_TIMA_RELOAD_WINDOW (42_scheduler.md R224) -/
  timaReloadWindow : Nat := 4
  /-- P_DIV_WRITE_GLITCH (42_scheduler.md R225, log 14) -/
  divWriteGlitch : Bool := false
  /-- `INIT` (42_scheduler.md R211) -/
  init : Init := {}
  deriving DecidableEq, Repr

/-- The free byte of each use: `draw byte` of 00_scope.md R13, "under no law". Nothing constrains it (log 4). -/
opaque Config.freeByte : Nat → Byte

/-- The free bit of each use: `draw bool` of 00_scope.md R13, "under no law". Nothing constrains it (log 4). -/
opaque Config.freeBool : Nat → Bool

end Sys2Proof
end

