-- ==== Sys2Proof/Syntax.lean ====
section
/-! DEFINITION. The commands of the block (30_encoding.md R104): one constructor per row of the opcode table,
each operand a field of the exact width 30_encoding.md R102 and R103 give it. -/

namespace Sys2Proof

/-- A command. The names of the operands are those of the opcode table. -/
inductive Instr where
  /-- RESET, cartridge load (40_bank_window_ops.md R130). -/
  | reset (romBanks : BitVec 16) (ramBanks : BitVec 8) (wramBanks : BitVec 4) (isCgb : Bool)
  /-- SET_ROMBANK0 (R134). -/
  | setRombank0 (bank : BitVec 16)
  /-- SET_ROMBANK (R136). -/
  | setRombank (bank : BitVec 16)
  /-- SET_RAMBANK (R138). -/
  | setRambank (bank : BitVec 8) (flags : BitVec 3)
  /-- SET_WRAMBANK (R141). -/
  | setWrambank (bank : BitVec 16)
  /-- SET_VRAMBANK (R143). -/
  | setVrambank (bank : BitVec 16)
  /-- SET_OAMDMASRC (R145); `src` is the source code of 30_encoding.md R103, legal when at most 5. -/
  | setOamDmaSrc (src : BitVec 3)
  /-- READ (41_bus_access.md R160). -/
  | read (addr : Addr) (cycle : Cycle)
  /-- WRITE (R170). -/
  | write (addr : Addr) (data : Byte) (cycle : Cycle)
  /-- FF_READ (R180). -/
  | ffRead (p : Byte) (cycle : Cycle)
  /-- FF_WRITE (R181). -/
  | ffWrite (p : Byte) (data : Byte) (cycle : Cycle)
  /-- EVENT (42_scheduler.md R204). -/
  | event (cycle : Cycle)
  /-- NEXT_EVENT_TIME (R206). -/
  | nextEventTime
  /-- MRESET, machine reset (R212). -/
  | mreset
  /-- SET_DS (R214). -/
  | setDs (ds : Bool) (cycle : Cycle)
  /-- REBASE (R216). -/
  | rebase (delta : Cycle)
  /-- LYC_CFG (R222). -/
  | lycCfg (lyc : Byte) (enable : Bool) (cycle : Cycle)
  /-- TAKE_FRAME (R232). -/
  | takeFrame
  /-- HALT (43_irq_halt.md R260). -/
  | halt
  /-- EI (R261). -/
  | ei (cycle : Cycle)
  /-- DI (R262). -/
  | di
  /-- IME (R263). -/
  | ime
  /-- HALTED (R264). -/
  | halted
  /-- IRQ_IN (R265). -/
  | irqIn (mask : BitVec 5) (cycle : Cycle)
  /-- STATE_SIZE (44_save_state.md R284). -/
  | stateSize
  /-- SAVE_STATE (R285). -/
  | saveState
  /-- LOAD_STATE (R286). -/
  | loadState
  deriving DecidableEq, Repr

end Sys2Proof
end

