-- ==== Sys2Proof/WellFormed.lean ====
section
/-! DEFINITION. Which commands are well formed. Every operand has the exact width of its field, so the one check
left is the operand code with illegal values inside its bits: the source code of SET_OAMDMASRC (30_encoding.md R103). -/

namespace Sys2Proof

/-- A command the packet can carry legally. -/
def Instr.wellFormed : Instr → Bool
  | .reset _ _ _ _ => true
  | .setRombank0 _ => true
  | .setRombank _ => true
  | .setRambank _ _ => true
  | .setWrambank _ => true
  | .setVrambank _ => true
  | .setOamDmaSrc src => decide (src.toNat ≤ 5)
  | .read _ _ => true
  | .write _ _ _ => true
  | .ffRead _ _ => true
  | .ffWrite _ _ _ => true
  | .event _ => true
  | .nextEventTime => true
  | .mreset => true
  | .setDs _ _ => true
  | .rebase _ => true
  | .lycCfg _ _ _ => true
  | .takeFrame => true
  | .halt => true
  | .ei _ => true
  | .di => true
  | .ime => true
  | .halted => true
  | .irqIn _ _ => true
  | .stateSize => true
  | .saveState => true
  | .loadState => true

end Sys2Proof
end

