-- ==== Sys2Proof/Decode.lean ====
section
/-! DEFINITION. Decoding of the 64-bit command packet (30_encoding.md R100 to R105), total on every packet and
rejecting by name, and the encoder, from the same tables. -/

namespace Sys2Proof

/-- Why a packet is illegal (30_encoding.md R101, R103; 60_exceptions.md R303). -/
inductive DecodeError where
  /-- OP is not in the opcode map of R104. -/
  | unknownOpcode
  /-- A bit that the format reserves is set (R101, R102). -/
  | reservedBit
  /-- SET_OAMDMASRC with code 6 or 7 (R103). -/
  | badSourceCode
  deriving DecidableEq, Repr

/-- OP, bits 63:56 (R100). -/
def opField (p : Packet) : BitVec 8 := p.extractLsb' 56 8
/-- A, bits 55:40 (R100). -/
def aField (p : Packet) : BitVec 16 := p.extractLsb' 40 16
/-- B, bits 39:32 (R100). -/
def bField (p : Packet) : BitVec 8 := p.extractLsb' 32 8
/-- C, bits 31:0 (R100). -/
def cField (p : Packet) : BitVec 32 := p.extractLsb' 0 32

/-- The low byte of A. -/
def lowA (a : BitVec 16) : BitVec 8 := a.extractLsb' 0 8
/-- The high byte of A, reserved in most formats. -/
def highA (a : BitVec 16) : BitVec 8 := a.extractLsb' 8 8

/-- Accept a command whose reserved bits are all zero (R101). -/
def acceptIf (reservedZero : Bool) (i : Instr) : Except DecodeError Instr :=
  if reservedZero then .ok i else .error .reservedBit

/-- Format N: nothing but OP (R102). -/
def decodeN (a : BitVec 16) (b : BitVec 8) (c : BitVec 32) (i : Instr) : Except DecodeError Instr :=
  acceptIf (a == 0 && b == 0 && c == 0) i

/-- Format BK: a bank in A, nothing in B and C (R102). -/
def decodeBK (b : BitVec 8) (c : BitVec 32) (i : Instr) : Except DecodeError Instr :=
  acceptIf (b == 0 && c == 0) i

/-- Format CY: a cycle in C, nothing in A and B (R102). -/
def decodeCY (a : BitVec 16) (b : BitVec 8) (i : Instr) : Except DecodeError Instr :=
  acceptIf (a == 0 && b == 0) i

/-- Format RST: C[31:9] and C[7:4] are reserved (R102). -/
def decodeRST (a : BitVec 16) (b : BitVec 8) (c : BitVec 32) : Except DecodeError Instr :=
  acceptIf (c.extractLsb' 9 23 == 0 && c.extractLsb' 4 4 == 0)
    (.reset a b (c.extractLsb' 0 4) (c.getLsbD 8))

/-- Format RB: A[15:8], B[7:3] and C are reserved (R102). -/
def decodeRB (a : BitVec 16) (b : BitVec 8) (c : BitVec 32) : Except DecodeError Instr :=
  acceptIf (highA a == 0 && b.extractLsb' 3 5 == 0 && c == 0) (.setRambank (lowA a) (b.extractLsb' 0 3))

/-- Format SRC: everything but B[2:0] is reserved, and the codes 6 and 7 are illegal (R102, R103). -/
def decodeSRC (a : BitVec 16) (b : BitVec 8) (c : BitVec 32) : Except DecodeError Instr :=
  if a == 0 && b.extractLsb' 3 5 == 0 && c == 0 then
    if (b.extractLsb' 0 3).toNat ≤ 5 then .ok (.setOamDmaSrc (b.extractLsb' 0 3)) else .error .badSourceCode
  else .error .reservedBit

/-- Format S: A and B[7:1] are reserved (R102). -/
def decodeS (a : BitVec 16) (b : BitVec 8) (c : BitVec 32) : Except DecodeError Instr :=
  acceptIf (a == 0 && b.extractLsb' 1 7 == 0) (.setDs (b.getLsbD 0) c)

/-- Format L: A[15:8] and B[7:1] are reserved (R102). -/
def decodeL (a : BitVec 16) (b : BitVec 8) (c : BitVec 32) : Except DecodeError Instr :=
  acceptIf (highA a == 0 && b.extractLsb' 1 7 == 0) (.lycCfg (lowA a) (b.getLsbD 0) c)

/-- Format I: A and B[7:5] are reserved (R102). -/
def decodeI (a : BitVec 16) (b : BitVec 8) (c : BitVec 32) : Except DecodeError Instr :=
  acceptIf (a == 0 && b.extractLsb' 5 3 == 0) (.irqIn (b.extractLsb' 0 5) c)

/-- The opcode map of R104 over the four fields of a packet. -/
def decodeFields (op : BitVec 8) (a : BitVec 16) (b : BitVec 8) (c : BitVec 32) : Except DecodeError Instr :=
  if op = 0x01#8 then decodeRST a b c
  else if op = 0x02#8 then decodeBK b c (.setRombank0 a)
  else if op = 0x03#8 then decodeBK b c (.setRombank a)
  else if op = 0x04#8 then decodeRB a b c
  else if op = 0x05#8 then decodeBK b c (.setWrambank a)
  else if op = 0x06#8 then decodeBK b c (.setVrambank a)
  else if op = 0x07#8 then decodeSRC a b c
  else if op = 0x10#8 then acceptIf (b == 0) (.read a c)
  else if op = 0x11#8 then .ok (.write a b c)
  else if op = 0x12#8 then acceptIf (highA a == 0 && b == 0) (.ffRead (lowA a) c)
  else if op = 0x13#8 then acceptIf (highA a == 0) (.ffWrite (lowA a) b c)
  else if op = 0x20#8 then decodeCY a b (.event c)
  else if op = 0x21#8 then decodeN a b c .nextEventTime
  else if op = 0x22#8 then decodeN a b c .mreset
  else if op = 0x23#8 then decodeS a b c
  else if op = 0x24#8 then decodeCY a b (.rebase c)
  else if op = 0x25#8 then decodeL a b c
  else if op = 0x26#8 then decodeN a b c .takeFrame
  else if op = 0x30#8 then decodeN a b c .halt
  else if op = 0x31#8 then decodeCY a b (.ei c)
  else if op = 0x32#8 then decodeN a b c .di
  else if op = 0x33#8 then decodeN a b c .ime
  else if op = 0x34#8 then decodeN a b c .halted
  else if op = 0x35#8 then decodeI a b c
  else if op = 0x40#8 then decodeN a b c .stateSize
  else if op = 0x41#8 then decodeN a b c .saveState
  else if op = 0x42#8 then decodeN a b c .loadState
  else .error .unknownOpcode

/-- Decoding, total on every packet (R105). -/
def decode (p : Packet) : Except DecodeError Instr :=
  decodeFields (opField p) (aField p) (bField p) (cField p)

/-- A packet from its four fields (R100). -/
def packFields (op : BitVec 8) (a : BitVec 16) (b : BitVec 8) (c : BitVec 32) : Packet :=
  op ++ a ++ b ++ c

/-- One flag bit in the low bit of a field. -/
def bit1 (b : Bool) : BitVec 1 := BitVec.ofBool b

/-- The packet of a command (R100, R102, R104). -/
def encode : Instr → Packet
  | .reset rom ram wram cgb => packFields 0x01#8 rom ram (0#23 ++ bit1 cgb ++ 0#4 ++ wram)
  | .setRombank0 bank => packFields 0x02#8 bank 0 0
  | .setRombank bank => packFields 0x03#8 bank 0 0
  | .setRambank bank flags => packFields 0x04#8 (0#8 ++ bank) (0#5 ++ flags) 0
  | .setWrambank bank => packFields 0x05#8 bank 0 0
  | .setVrambank bank => packFields 0x06#8 bank 0 0
  | .setOamDmaSrc src => packFields 0x07#8 0 (0#5 ++ src) 0
  | .read addr c => packFields 0x10#8 addr 0 c
  | .write addr v c => packFields 0x11#8 addr v c
  | .ffRead p c => packFields 0x12#8 (0#8 ++ p) 0 c
  | .ffWrite p v c => packFields 0x13#8 (0#8 ++ p) v c
  | .event c => packFields 0x20#8 0 0 c
  | .nextEventTime => packFields 0x21#8 0 0 0
  | .mreset => packFields 0x22#8 0 0 0
  | .setDs ds c => packFields 0x23#8 0 (0#7 ++ bit1 ds) c
  | .rebase d => packFields 0x24#8 0 0 d
  | .lycCfg lyc en c => packFields 0x25#8 (0#8 ++ lyc) (0#7 ++ bit1 en) c
  | .takeFrame => packFields 0x26#8 0 0 0
  | .halt => packFields 0x30#8 0 0 0
  | .ei c => packFields 0x31#8 0 0 c
  | .di => packFields 0x32#8 0 0 0
  | .ime => packFields 0x33#8 0 0 0
  | .halted => packFields 0x34#8 0 0 0
  | .irqIn mask c => packFields 0x35#8 0 (0#3 ++ mask) c
  | .stateSize => packFields 0x40#8 0 0 0
  | .saveState => packFields 0x41#8 0 0 0
  | .loadState => packFields 0x42#8 0 0 0

/-- The packet whose bits are `w`, numbered as the opcode table numbers them: bit 0 is bit 0 of the packet. The
packet enters through one 64-bit port, so no byte order arises (log 22). -/
def tablePacket (w : Nat) : Packet := BitVec.ofNat 64 w

/-- The command the decoder reads from a table word. A packet is always 64 bits, so `nbits` selects nothing. -/
def decodeTableWord (_nbits w : Nat) : Option Instr :=
  match decode (tablePacket w) with
  | .ok i => some i
  | .error _ => none

end Sys2Proof
end

