-- ==== Sys2Proof/Machine/State.lean ====
section
/-! DEFINITION. The state of the block as plain data (10_state.md), its ports (30_encoding.md R106), the reasons a
step can stop, and the state at power-on. -/

namespace Sys2Proof.Machine

open Sys2Proof

/-- The Backing Store regions (10_state.md R23). -/
inductive Region where
  | rom | vram | sram | wram | disr | hi
  deriving DecidableEq, Repr

/-- The OAM DMA source ranges (10_state.md R24, 30_encoding.md R103). -/
inductive DmaSrc where
  | rom | sram | vram | wram | invalid | off
  deriving DecidableEq, Repr

/-- The five scheduled units, in their priority order (42_scheduler.md R201, R202). -/
inductive SchedUnit where
  | blit | serial | oamDma | tima | lyc
  deriving DecidableEq, Repr

/-- A read window: the byte for address `a` is byte `bias + a` of the region, or the slow path (10_state.md R26). -/
inductive ReadEntry where
  | win (r : Region) (bias : Int)
  | slow
  deriving DecidableEq, Repr

/-- A write window; `discard` drops the byte (10_state.md R26, 00_scope.md R13). -/
inductive WriteEntry where
  | win (r : Region) (bias : Int)
  | discard
  | slow
  deriving DecidableEq, Repr

/-- One region's bytes, sparse: (index, byte) pairs in the canonical form of `Memory.wf` (Ops.lean, log 6). -/
abbrev Memory := List Host.Cell

/-- The block's own faults (60_exceptions.md R302). They are state of the machine, not stops of the model: raising
one gives a next state (R300, log 2). -/
inductive FaultId where
  | noCart | contract | bank | illegalCmd | stateField
  deriving DecidableEq, Repr

/-- What a fault records (60_exceptions.md R302, column "info recorded"). -/
inductive FaultInfo where
  | none
  /-- the offending cycle operand -/
  | cycle (c : Cycle)
  /-- the offending LY view -/
  | lyView (ly : BitVec 8) (lyTime : Cycle)
  /-- the offending REBASE delta -/
  | delta (d : Cycle)
  /-- the bank value -/
  | bank (b : BitVec 16)
  /-- the geometry RESET was given, all four fields of it (10_state.md R22) -/
  | geometry (romBanks : BitVec 16) (ramBanks : BitVec 8) (wramBanks : BitVec 4) (isCgb : Bool)
  /-- the packet that does not decode -/
  | packet (p : Packet)
  /-- the blob offset of the first bad field -/
  | offset (n : Nat)
  deriving DecidableEq, Repr

/-- The fault register: the fault, its info and the packet that raised it (60_exceptions.md R300). -/
structure FaultRecord where
  id : FaultId
  info : FaultInfo
  packet : Packet
  deriving DecidableEq, Repr

/-- The geometry, written only by RESET (10_state.md R22). -/
structure Geometry where
  romBanks : BitVec 16
  ramBanks : BitVec 8
  wramBanks : BitVec 4
  isCgb : Bool
  deriving DecidableEq, Repr

/-- The Backing Store (10_state.md R23). -/
structure Arena where
  rom : Memory
  vram : Memory
  sram : Memory
  wram : Memory
  disr : Memory
  hi : Memory
  deriving DecidableEq, Repr

/-- The bank-index registers (10_state.md R24). In `ramFlags` bit 0 is READ_EN, bit 1 WRITE_EN, bit 2 RTC_EN. -/
structure Banks where
  rombank0 : BitVec 16
  rombank : BitVec 16
  rambank : BitVec 8
  ramFlags : BitVec 3
  vrambank : BitVec 1
  wrambankSel : BitVec 3
  oamDmaSrc : DmaSrc
  deriving DecidableEq, Repr

/-- The Bank Window Table, sixteen entries each way; empty while it does not exist (10_state.md R26, R27). -/
structure WindowTable where
  rmem : List ReadEntry
  wmem : List WriteEntry
  deriving DecidableEq, Repr

/-- The trigger times (10_state.md R30). -/
structure Times where
  blit : Cycle
  serial : Cycle
  oamDma : Cycle
  tima : Cycle
  lyc : Cycle
  deriving DecidableEq, Repr

/-- The Interrupt Request State (10_state.md R31). -/
structure Irq where
  IF : BitVec 5
  IE : BitVec 8
  ime : Bool
  halted : Bool
  eiCycle : Cycle
  deriving DecidableEq, Repr

/-- The LYC unit (10_state.md R33). -/
structure LycUnit where
  lycReg : BitVec 8
  lycEnable : Bool
  deriving DecidableEq, Repr

/-- The DIV/TIMA unit (10_state.md R34). -/
structure TimerUnit where
  divBase : Cycle
  tima : BitVec 8
  timaLast : Cycle
  tma : BitVec 8
  tac : BitVec 3
  lastOvf : Option Cycle
  deriving DecidableEq, Repr

/-- The serial unit (10_state.md R35). -/
structure SerialUnit where
  sb : BitVec 8
  sc : BitVec 8
  serialBits : BitVec 4
  deriving DecidableEq, Repr

/-- The OAM DMA progress counters (10_state.md R36). -/
structure DmaUnit where
  dmaReg : BitVec 8
  dmaPos : BitVec 8
  deriving DecidableEq, Repr

/-- The region contents the environment draws at RESET (40_bank_window_ops.md R130 "draw bytes"; log 5). -/
structure DrawnRam where
  vram : List Host.Cell
  sram : List Host.Cell
  wram : List Host.Cell
  hi : List Host.Cell
  deriving DecidableEq, Repr

/-- The input ports (30_encoding.md R106), and the contents drawn at RESET. -/
structure Inputs where
  /-- ROMIMG; every list of pairs denotes an image (`Memory.ofCells`) -/
  romImg : List Host.Cell
  /-- ALLOC; true is ok -/
  alloc : Bool
  /-- LYV.ly -/
  ly : BitVec 8
  /-- LYV.lyTime -/
  lyTime : Cycle
  /-- LCDP.vramOk -/
  vramOk : Bool
  /-- LCDP.oamOk -/
  oamOk : Bool
  /-- CARTRD -/
  cartRd : Byte
  /-- EXTRD -/
  extRd : Byte
  /-- BUF, as LOAD_STATE reads it -/
  buf : List Byte
  /-- the model's own field (log 5) -/
  drawn : DrawnRam
  deriving DecidableEq, Repr

/-- The RSP port (30_encoding.md R106, R107; `refused` is 60_exceptions.md R300). -/
inductive Response where
  | none
  | refused
  | byte (v : Byte)
  | word (v : BitVec 32)
  | bit (v : Bool)
  deriving DecidableEq, Repr

/-- A CARTCTL output `(addr, value, cycle)` (30_encoding.md R106). -/
structure CartWrite where
  addr : Addr
  value : Byte
  cycle : Cycle
  deriving DecidableEq, Repr

/-- An EXTWR output `(p, value, cycle)` (30_encoding.md R106). -/
structure ExtWrite where
  p : Byte
  value : Byte
  cycle : Cycle
  deriving DecidableEq, Repr

/-- The output ports, as the last command left them (30_encoding.md R106; log 17). -/
structure Outputs where
  rsp : Response := .none
  cartCtl : Option CartWrite := none
  extWr : Option ExtWrite := none
  /-- BUF, as SAVE_STATE fills it -/
  buf : Option (List Byte) := none
  deriving DecidableEq, Repr

/-- A command that has arrived: its packet and the port values it sees (log 1, log 3). -/
structure Command where
  packet : Packet
  inputs : Inputs
  deriving DecidableEq, Repr

/-- The block state (10_state.md), its parameters, its ports, and the model's own command stream and draw count. -/
structure State where
  /-- 00_scope.md R9, 42_scheduler.md R211 -/
  params : Params
  /-- R22 -/
  loaded : Bool
  /-- R39 -/
  running : Bool
  geo : Geometry
  arena : Arena
  banks : Banks
  table : WindowTable
  /-- R28 -/
  cc : Cycle
  /-- R29 -/
  ds : Bool
  time : Times
  irq : Irq
  /-- R32 -/
  frameDone : Bool
  lyc : LycUnit
  timer : TimerUnit
  serial : SerialUnit
  dma : DmaUnit
  /-- R37 -/
  faulted : Option FaultRecord
  inputs : Inputs
  outputs : Outputs
  /-- the model's own field (log 1) -/
  commands : List Command
  /-- the model's own field: how many free values have been used (log 4) -/
  draws : Nat
  deriving DecidableEq, Repr

/-- Why the model stops with a fault. -/
inductive Fault where
  /-- An access to byte `i` of a region that has no such byte: raised by `State.readArena` and `State.writeArena`,
  the check on every dereference that 20_memory.md R77 allows a model. By that rule's invariant it never fires.
  Safe (log 10). -/
  | arenaBounds (r : Region) (i : Int)
  deriving DecidableEq, Repr

/-- Why the model refuses. -/
inductive Refusal where
  /-- An instruction that has no meaning yet: raised by no arm of `exec`. Safe. -/
  | notModelled (mnemonic : String)
  /-- No command has arrived, and the block is "stepped only by commands" (00_scope.md R16): raised by `step`.
  Safe (log 1). -/
  | noCommand
  deriving DecidableEq, Repr

/-- The port values at power-on: the environment's, named in log 3. -/
def Inputs.powerOn : Inputs where
  romImg := []
  alloc := true
  ly := 0
  lyTime := 456
  vramOk := true
  oamOk := true
  cartRd := 0xFF
  extRd := 0xFF
  buf := []
  drawn := { vram := [], sram := [], wram := [], hi := [] }

/-- Power-on (10_state.md R38, R330): `loaded`, `running` and `faulted` as the rules say, the window table absent,
every other field at the value log 7 names. -/
def State.reset : State where
  params := {}
  loaded := false
  running := false
  geo := { romBanks := 0, ramBanks := 0, wramBanks := 0, isCgb := false }
  arena := { rom := [], vram := [], sram := [], wram := [], disr := [], hi := [] }
  banks := { rombank0 := 0, rombank := 0, rambank := 0, ramFlags := 0, vrambank := 0, wrambankSel := 0,
             oamDmaSrc := .off }
  table := { rmem := [], wmem := [] }
  cc := 0
  ds := false
  time := { blit := 0, serial := 0, oamDma := 0, tima := 0, lyc := 0 }
  irq := { IF := 0, IE := 0, ime := false, halted := false, eiCycle := 0 }
  frameDone := false
  lyc := { lycReg := 0, lycEnable := false }
  timer := { divBase := 0, tima := 0, timaLast := 0, tma := 0, tac := 0, lastOvf := none }
  serial := { sb := 0, sc := 0, serialBits := 0 }
  dma := { dmaReg := 0, dmaPos := 0 }
  faulted := none
  inputs := Inputs.powerOn
  outputs := {}
  commands := []
  draws := 0

end Sys2Proof.Machine
end

