-- ==== Sys2Proof/Machine/Operands.lean ====
section
/-! DEFINITION. Operand forms: how a command's fields are read (30_encoding.md R102, R103), the top nibble of an
address, the I/O register map (R108), the DMA page classes (42_scheduler.md R235), and which checks and which cycle
operand each command carries (10_state.md R39, 60_exceptions.md R301). -/

namespace Sys2Proof.Machine

open Sys2Proof

/-- The source codes of SET_OAMDMASRC and of blob byte 0x14 (30_encoding.md R103). -/
def DmaSrc.ofCode (code : Nat) : Option DmaSrc :=
  match code with
  | 0 => some .rom
  | 1 => some .sram
  | 2 => some .vram
  | 3 => some .wram
  | 4 => some .invalid
  | 5 => some .off
  | _ => none

/-- The code of a source (30_encoding.md R103). -/
def DmaSrc.code : DmaSrc → Byte
  | .rom => 0
  | .sram => 1
  | .vram => 2
  | .wram => 3
  | .invalid => 4
  | .off => 5

/-- READ_EN, bit 0 of the RAM flags (30_encoding.md R103). -/
def readEn (flags : BitVec 3) : Bool := flags.getLsbD 0
/-- WRITE_EN, bit 1 of the RAM flags (30_encoding.md R103). -/
def writeEn (flags : BitVec 3) : Bool := flags.getLsbD 1
/-- RTC_EN, bit 2 of the RAM flags (30_encoding.md R103). -/
def rtcEn (flags : BitVec 3) : Bool := flags.getLsbD 2

/-- The nibble of an address, `addr[15:12]` (00_scope.md R15). -/
def nibble (a : Addr) : Nat := (a.extractLsb' 12 4).toNat

/-- The effective switchable WRAM bank of a selection: bank 0 aliases to 1 (10_state.md R25). -/
def wramBankOf (sel : BitVec 3) : Nat := max sel.toNat 1

/-- The page class of a DMA register value (42_scheduler.md R235). -/
def dmaClass (v : Byte) : DmaSrc :=
  if v.toNat < 0x80 then .rom
  else if v.toNat < 0xA0 then .vram
  else if v.toNat < 0xC0 then .sram
  else if v.toNat < 0xE0 then .wram
  else .invalid

/-- What stands at `0xFF00 + p` (30_encoding.md R108): a core register, HRAM, or a delegated register. -/
inductive IoReg where
  | sb | sc | div | tima | tma | tac | intFlag | dma | vbk | svbk | intEnable | hram | delegated
  deriving DecidableEq, Repr

/-- The register map of 30_encoding.md R108; VBK and SVBK are core registers in CGB mode only (41_bus_access.md R190,
R191). -/
def ioReg (isCgb : Bool) (p : Byte) : IoReg :=
  if p = 0x01 then .sb
  else if p = 0x02 then .sc
  else if p = 0x04 then .div
  else if p = 0x05 then .tima
  else if p = 0x06 then .tma
  else if p = 0x07 then .tac
  else if p = 0x0F then .intFlag
  else if p = 0x46 then .dma
  else if p = 0x4F then (if isCgb then .vbk else .delegated)
  else if p = 0x70 then (if isCgb then .svbk else .delegated)
  else if p = 0xFF then .intEnable
  else if 0x80 ≤ p.toNat then .hram
  else .delegated

/-- Which lifecycle checks a command passes (10_state.md R39, 60_exceptions.md R301 items 3 and 4). -/
inductive Gate where
  /-- none: RESET, and a packet that does not decode -/
  | none
  /-- `loaded = 1` -/
  | loaded
  /-- `loaded = 1` and `running = 1` -/
  | running
  deriving DecidableEq, Repr

/-- The lifecycle checks of each command (10_state.md R39, 60_exceptions.md R301). -/
def Gate.ofInstr : Instr → Gate
  | .reset _ _ _ _ => .none
  | .setRombank0 _ => .loaded
  | .setRombank _ => .loaded
  | .setRambank _ _ => .loaded
  | .setWrambank _ => .loaded
  | .setVrambank _ => .loaded
  | .setOamDmaSrc _ => .loaded
  | .read _ _ => .running
  | .write _ _ _ => .running
  | .ffRead _ _ => .running
  | .ffWrite _ _ _ => .running
  | .event _ => .running
  | .nextEventTime => .running
  | .mreset => .loaded
  | .setDs _ _ => .running
  | .rebase _ => .running
  | .lycCfg _ _ _ => .running
  | .takeFrame => .running
  | .halt => .running
  | .ei _ => .running
  | .di => .running
  | .ime => .running
  | .halted => .running
  | .irqIn _ _ => .running
  | .stateSize => .loaded
  | .saveState => .running
  | .loadState => .loaded

/-- The cycle operand of a command that has one (10_state.md R28; the C field of REBASE is a delta, 42_scheduler.md
R216). -/
def cycleOperand : Instr → Option Cycle
  | .reset _ _ _ _ => none
  | .setRombank0 _ => none
  | .setRombank _ => none
  | .setRambank _ _ => none
  | .setWrambank _ => none
  | .setVrambank _ => none
  | .setOamDmaSrc _ => none
  | .read _ c => some c
  | .write _ _ c => some c
  | .ffRead _ c => some c
  | .ffWrite _ _ c => some c
  | .event c => some c
  | .nextEventTime => none
  | .mreset => none
  | .setDs _ c => some c
  | .rebase _ => none
  | .lycCfg _ _ c => some c
  | .takeFrame => none
  | .halt => none
  | .ei c => some c
  | .di => none
  | .ime => none
  | .halted => none
  | .irqIn _ c => some c
  | .stateSize => none
  | .saveState => none
  | .loadState => none

end Sys2Proof.Machine
end

