-- ==== Sys2Proof/Machine/Flags.lean ====
section
/-! DEFINITION. The interrupt-request flags and the halt gate: raising a request (60_exceptions.md R305), the pending
set (43_irq_halt.md R259), the wake rule (R266), and what the CPU may service (R259, R268). -/

namespace Sys2Proof.Machine

open Sys2Proof

/-- Request bit 1, LCD status (60_exceptions.md R305). -/
def irqLcdStatus : BitVec 5 := 0x02#5
/-- Request bit 2, timer (60_exceptions.md R305). -/
def irqTimer : BitVec 5 := 0x04#5
/-- Request bit 3, serial (60_exceptions.md R305). -/
def irqSerial : BitVec 5 := 0x08#5

/-- The pending set, `IF & IE[4:0]` (43_irq_halt.md R259). -/
def pend (q : Irq) : BitVec 5 := q.IF &&& q.IE.extractLsb' 0 5

/-- The wake rule on the interrupt-request state (43_irq_halt.md R266): a pending request clears `halted`, whatever
`ime` is. -/
def wakeIrq (q : Irq) : Irq :=
  if q.halted && pend q != 0 then { q with halted := false } else q

/-- The wake rule (43_irq_halt.md R266). -/
def State.wakeRule (s : State) : State := { s with irq := wakeIrq s.irq }

/-- Set request bits, then the wake rule: the end of LYC, TIMA and SERIAL dispatches and of IRQ_IN (42_scheduler.md
R221, R227, R229; 43_irq_halt.md R265). -/
def State.raiseIrq (mask : BitVec 5) (s : State) : State :=
  { s with irq := wakeIrq { s.irq with IF := s.irq.IF ||| mask } }

/-- When the CPU may service an interrupt at its boundary at cycle `c` (43_irq_halt.md R259). The block exposes the
inputs of this test and does not perform the service. -/
def mayService (q : Irq) (c : Cycle) : Bool :=
  q.ime && pend q != 0 && decide (q.eiCycle < c)

/-- The request the CPU services first, the lowest-numbered pending bit (43_irq_halt.md R268). -/
def serviceBit (q : Irq) : Option Nat :=
  [0, 1, 2, 3, 4].find? fun i => (pend q).getLsbD i

/-- The vector of a request bit, `0x0040 + 8 * bit` (43_irq_halt.md R268); the CPU's, not the block's. -/
def serviceVector (bit : Nat) : Addr := 0x0040#16 + BitVec.ofNat 16 (8 * bit)

end Sys2Proof.Machine
end

