-- ==== Sys2Proof/Machine/Ops.lean ====
section
/-! DEFINITION. The named operations over memory, windows, registers and ports: the sparse byte arrays, the Backing
Store, the window derivation, raising a fault (60_exceptions.md R300), the checks every command passes (R301),
`tick`, the free values, and the responses. -/

namespace Sys2Proof.Machine

open Sys2Proof

/-! ## Sparse byte arrays -/

/-- The byte of an index that is not listed: 0xFF for the disabled-RAM sentinel (10_state.md R23), and otherwise the
filler of the representation (log 6). -/
def Region.fill : Region → Byte
  | .disr => 0xFF
  | .rom | .vram | .sram | .wram | .hi => 0x00

/-- Byte `i` of a sparse array. -/
def Memory.read (fill : Byte) : Memory → Nat → Byte
  | [], _ => fill
  | (a, b) :: rest, i => if a = i then b else Memory.read fill rest i

/-- Remove index `i`. -/
def Memory.erase : Memory → Nat → Memory
  | [], _ => []
  | (a, b) :: rest, i => if a = i then Memory.erase rest i else (a, b) :: Memory.erase rest i

/-- List byte `v` at index `i`, keeping the indices rising. -/
def Memory.insert : Memory → Nat → Byte → Memory
  | [], i, v => [(i, v)]
  | (a, b) :: rest, i, v =>
    if a < i then (a, b) :: Memory.insert rest i v
    else if a = i then (i, v) :: rest
    else (i, v) :: (a, b) :: rest

/-- Store byte `v` at index `i`; storing what an unlisted index reads as unlists it. -/
def Memory.write (fill : Byte) (m : Memory) (i : Nat) (v : Byte) : Memory :=
  if v = fill then Memory.erase m i else Memory.insert m i v

/-- The indices are above `low`, rise strictly, stay below `len`, and no byte is the filler. -/
def Memory.wfFrom (fill : Byte) (len : Nat) : Nat → Memory → Bool
  | _, [] => true
  | low, (a, b) :: rest =>
    decide (low ≤ a) && decide (a < len) && decide (b ≠ fill) && Memory.wfFrom fill len (a + 1) rest

/-- The canonical form of a region of `len` bytes. -/
def Memory.wf (fill : Byte) (len : Nat) (m : Memory) : Bool := Memory.wfFrom fill len 0 m

/-- The array of `len` bytes that a list of pairs denotes: the first pair of an index counts, an index at or past
`len` does not. Every list denotes one array, and every array has such a list. -/
def Memory.ofCells (fill : Byte) (len : Nat) (cells : List Host.Cell) : Memory :=
  cells.foldr (fun c m => if c.1 < len then Memory.write fill m c.1 c.2 else m) []

/-- The array whose bytes from index `i` on are `bytes`. -/
def Memory.ofBytesFrom (fill : Byte) : Nat → List Byte → Memory
  | _, [] => []
  | i, b :: rest =>
    if b = fill then Memory.ofBytesFrom fill (i + 1) rest else (i, b) :: Memory.ofBytesFrom fill (i + 1) rest

/-- The array whose bytes are `bytes`. -/
def Memory.ofBytes (fill : Byte) (bytes : List Byte) : Memory := Memory.ofBytesFrom fill 0 bytes

/-- The first `len` bytes of an array, in order. -/
def Memory.toBytes (fill : Byte) (len : Nat) (m : Memory) : List Byte :=
  (List.range len).map (Memory.read fill m)

/-! ## The Backing Store -/

/-- The length of a region in bytes (10_state.md R23). -/
def Region.length (g : Geometry) : Region → Nat
  | .rom => g.romBanks.toNat * 0x4000
  | .vram => 0x4000
  | .sram => g.ramBanks.toNat * 0x2000
  | .wram => g.wramBanks.toNat * 0x1000
  | .disr => 0x2000
  | .hi => 0x200

/-- The bytes of a region. -/
def Arena.get (m : Arena) : Region → Memory
  | .rom => m.rom
  | .vram => m.vram
  | .sram => m.sram
  | .wram => m.wram
  | .disr => m.disr
  | .hi => m.hi

/-- Replace the bytes of a region. -/
def Arena.set (m : Arena) (r : Region) (bytes : Memory) : Arena :=
  match r with
  | .rom => { m with rom := bytes }
  | .vram => { m with vram := bytes }
  | .sram => { m with sram := bytes }
  | .wram => { m with wram := bytes }
  | .disr => { m with disr := bytes }
  | .hi => { m with hi := bytes }

/-- `Arena(region, i)` (00_scope.md R13). -/
def Arena.byte (m : Arena) (r : Region) (i : Nat) : Byte := Memory.read r.fill (m.get r) i

/-- `Arena(region, i) <- v` (00_scope.md R13). -/
def Arena.store (m : Arena) (r : Region) (i : Nat) (v : Byte) : Arena :=
  m.set r (Memory.write r.fill (m.get r) i v)

/-- Why a command's body ends early: a fault of the block (`raise`), or a stop of the model. -/
inductive Abort where
  | raise (id : FaultId) (info : FaultInfo)
  | stop (f : Fault)
  deriving DecidableEq, Repr

/-- Byte `i` of region `r`, with the bound checked on every dereference (20_memory.md R77). -/
def State.readArena (r : Region) (i : Int) (s : State) : Except Abort Byte :=
  if 0 ≤ i ∧ i < (r.length s.geo : Int) then .ok (s.arena.byte r i.toNat) else .error (.stop (.arenaBounds r i))

/-- Store byte `v` at byte `i` of region `r`, with the bound checked (20_memory.md R77). -/
def State.writeArena (r : Region) (i : Int) (v : Byte) (s : State) : Except Abort State :=
  if 0 ≤ i ∧ i < (r.length s.geo : Int) then .ok { s with arena := s.arena.store r i.toNat v }
  else .error (.stop (.arenaBounds r i))

/-! ## Free values -/

/-- `draw byte` (00_scope.md R13; log 4). -/
def State.drawByte (s : State) : Byte × State :=
  (Config.freeByte s.draws, { s with draws := s.draws + 1 })

/-- `draw bool` (00_scope.md R13; log 4). -/
def State.drawBool (s : State) : Bool × State :=
  (Config.freeBool s.draws, { s with draws := s.draws + 1 })

/-- A byte whose bits in `mask` are those of `known` and whose other bits are drawn (41_bus_access.md, "any value"
bits). -/
def State.drawUnder (mask known : Byte) (s : State) : Byte × State :=
  ((known &&& mask) ||| (Config.freeByte s.draws &&& ~~~mask), { s with draws := s.draws + 1 })

/-- A store that lands or not as a drawn bit says (41_bus_access.md R173 to R177): where it does not land, the byte
keeps its value (log 15). -/
def State.writeArenaMaybe (r : Region) (i : Int) (v : Byte) (s : State) : Except Abort State := do
  let old ← s.readArena r i
  let (lands, s) := s.drawBool
  s.writeArena r i (if lands then v else old)

/-! ## Registers -/

/-- The trigger time of a unit (10_state.md R30). -/
def Times.get (t : Times) : SchedUnit → Cycle
  | .blit => t.blit
  | .serial => t.serial
  | .oamDma => t.oamDma
  | .tima => t.tima
  | .lyc => t.lyc

/-- Set the trigger time of a unit. -/
def State.setTime (u : SchedUnit) (v : Cycle) (s : State) : State :=
  match u with
  | .blit => { s with time := { s.time with blit := v } }
  | .serial => { s with time := { s.time with serial := v } }
  | .oamDma => { s with time := { s.time with oamDma := v } }
  | .tima => { s with time := { s.time with tima := v } }
  | .lyc => { s with time := { s.time with lyc := v } }

/-- The lesser of two cycle values, unsigned (42_scheduler.md R203). -/
def minCycle (a b : Cycle) : Cycle := if a ≤ b then a else b

/-- `minTime` (42_scheduler.md R203). -/
def minTime (t : Times) : Cycle :=
  minCycle t.blit (minCycle t.serial (minCycle t.oamDma (minCycle t.tima t.lyc)))

/-- `nextUnit`: the unit of least priority index whose time is `minTime` (42_scheduler.md R202, R203). -/
def nextUnit (t : Times) : SchedUnit :=
  if t.blit = minTime t then .blit
  else if t.serial = minTime t then .serial
  else if t.oamDma = minTime t then .oamDma
  else if t.tima = minTime t then .tima
  else .lyc

/-- `x << ds`: an interval of the LCD in counter cycles (00_scope.md R12). -/
def dsShift (ds : Bool) (x : Nat) : Nat := if ds then x * 2 else x

/-- `wramEff` (10_state.md R25). -/
def Banks.wramEff (b : Banks) : Nat := wramBankOf b.wrambankSel

/-! ## The window table -/

/-- The read window of cartridge RAM (20_memory.md R68). -/
def ramR (g : Geometry) (b : Banks) : ReadEntry :=
  if rtcEn b.ramFlags then (if readEn b.ramFlags then .slow else .win .disr (-0xA000))
  else if g.ramBanks = 0 ∨ readEn b.ramFlags = false then .win .disr (-0xA000)
  else .win .sram (b.rambank.toNat * 0x2000 - 0xA000)

/-- The write window of cartridge RAM (20_memory.md R69). -/
def ramW (g : Geometry) (b : Banks) : WriteEntry :=
  if rtcEn b.ramFlags then (if writeEn b.ramFlags then .slow else .discard)
  else if g.ramBanks = 0 ∨ writeEn b.ramFlags = false then .discard
  else .win .sram (b.rambank.toNat * 0x2000 - 0xA000)

/-- The read windows with no DMA active (20_memory.md R64, R65, R67, R68, R70, R71). -/
def baseR (g : Geometry) (b : Banks) (n : Nat) : ReadEntry :=
  if n ≤ 0x3 then .win .rom (b.rombank0.toNat * 0x4000)
  else if n ≤ 0x7 then .win .rom (b.rombank.toNat * 0x4000 - 0x4000)
  else if n ≤ 0x9 then .slow
  else if n ≤ 0xB then ramR g b
  else if n = 0xC then .win .wram (-0xC000)
  else if n = 0xD then .win .wram (b.wramEff * 0x1000 - 0xD000)
  else if n = 0xE then .win .wram (-0xE000)
  else .slow

/-- The write windows with no DMA active (20_memory.md R66, R67, R69, R70, R71). -/
def baseW (g : Geometry) (b : Banks) (n : Nat) : WriteEntry :=
  if n ≤ 0x9 then .slow
  else if n ≤ 0xB then ramW g b
  else if n = 0xC then .win .wram (-0xC000)
  else if n = 0xD then .win .wram (b.wramEff * 0x1000 - 0xD000)
  else if n = 0xE then .win .wram (-0xE000)
  else .slow

/-- `blockedRom`: the source is in `GR` (20_memory.md R72 to R74). -/
def blockedRom (p : Params) (g : Geometry) (src : DmaSrc) : Bool :=
  match src with
  | .rom => true
  | .sram => !g.isCgb || p.cgbExtBus
  | .vram => false
  | .wram => !g.isCgb
  | .invalid => true
  | .off => false

/-- `blockedSram`: the source is in `GS` (20_memory.md R72 to R74). -/
def blockedSram (p : Params) (g : Geometry) (src : DmaSrc) : Bool :=
  match src with
  | .rom => !g.isCgb || p.cgbExtBus
  | .sram => true
  | .vram => false
  | .wram => !g.isCgb
  | .invalid => true
  | .off => false

/-- `blockedWram`: the source is in `GW` (20_memory.md R72 to R74). -/
def blockedWram (_p : Params) (g : Geometry) (src : DmaSrc) : Bool :=
  match src with
  | .rom => !g.isCgb
  | .sram => !g.isCgb
  | .vram => false
  | .wram => true
  | .invalid => true
  | .off => false

/-- One read entry of the derived table (20_memory.md R75). -/
def deriveRAt (p : Params) (g : Geometry) (b : Banks) (n : Nat) : ReadEntry :=
  if n ≤ 0x7 then (if blockedRom p g b.oamDmaSrc then .slow else baseR g b n)
  else if 0xA ≤ n ∧ n ≤ 0xB then (if blockedSram p g b.oamDmaSrc then .slow else baseR g b n)
  else if 0xC ≤ n ∧ n ≤ 0xE then (if blockedWram p g b.oamDmaSrc then .slow else baseR g b n)
  else baseR g b n

/-- One write entry of the derived table (20_memory.md R75). -/
def deriveWAt (p : Params) (g : Geometry) (b : Banks) (n : Nat) : WriteEntry :=
  if 0xA ≤ n ∧ n ≤ 0xB then (if blockedSram p g b.oamDmaSrc then .slow else baseW g b n)
  else if 0xC ≤ n ∧ n ≤ 0xE then (if blockedWram p g b.oamDmaSrc then .slow else baseW g b n)
  else baseW g b n

/-- The whole table, all sixteen entries each way (20_memory.md R75). -/
def deriveTable (p : Params) (g : Geometry) (b : Banks) : WindowTable where
  rmem := (List.range 16).map (deriveRAt p g b)
  wmem := (List.range 16).map (deriveWAt p g b)

/-- `derive(S)` (20_memory.md R75, R83). -/
def State.derive (s : State) : State := { s with table := deriveTable s.params s.geo s.banks }

/-- The read entry an address consults (20_memory.md R76). -/
def State.readEntry (a : Addr) (s : State) : ReadEntry := s.table.rmem.getD (nibble a) .slow

/-- The write entry an address consults (20_memory.md R76). -/
def State.writeEntry (a : Addr) (s : State) : WriteEntry := s.table.wmem.getD (nibble a) .slow

/-- The predicates of 20_memory.md R72 on the state. -/
def State.romBlocked (s : State) : Bool := blockedRom s.params s.geo s.banks.oamDmaSrc
/-- See `State.romBlocked`. -/
def State.sramBlocked (s : State) : Bool := blockedSram s.params s.geo s.banks.oamDmaSrc
/-- See `State.romBlocked`. -/
def State.wramBlocked (s : State) : Bool := blockedWram s.params s.geo s.banks.oamDmaSrc

/-- Record the DMA source and re-derive the windows (40_bank_window_ops.md R145). -/
def State.setDmaSrc (src : DmaSrc) (s : State) : State :=
  State.derive { s with banks := { s.banks with oamDmaSrc := src } }

/-! ## Ports and responses -/

/-- `RSP <- r` (30_encoding.md R106). -/
def State.respond (r : Response) (s : State) : State := { s with outputs := { s.outputs with rsp := r } }

/-- `emit CARTCTL(a, v, c)` (30_encoding.md R106). -/
def State.emitCart (a : Addr) (v : Byte) (c : Cycle) (s : State) : State :=
  { s with outputs := { s.outputs with cartCtl := some ⟨a, v, c⟩ } }

/-- `emit EXTWR(p, v, c)` (30_encoding.md R106). -/
def State.emitExt (p : Byte) (v : Byte) (c : Cycle) (s : State) : State :=
  { s with outputs := { s.outputs with extWr := some ⟨p, v, c⟩ } }

/-- The outputs of the command before are gone when a command begins (log 17). -/
def State.clearOutputs (s : State) : State := { s with outputs := {} }

/-! ## Faults and the checks of every command -/

/-- Raising a fault (60_exceptions.md R300): the fault, its info and the packet are recorded, every other field stays
as it was when the command began, and there is no output. -/
def State.raise (p : Packet) (id : FaultId) (info : FaultInfo) (s : State) : State :=
  { s with faulted := some ⟨id, info, p⟩, outputs := {} }

/-- Refusing a command after a fault: nothing changes and the response is REFUSED (60_exceptions.md R300). -/
def State.refuse (s : State) : State := { s with outputs := { rsp := .refused } }

/-- The lifecycle checks, items 3 and 4 of 60_exceptions.md R301. -/
def Gate.passes (g : Gate) (s : State) : Bool :=
  match g with
  | .none => true
  | .loaded => s.loaded
  | .running => s.loaded && s.running

/-- What becomes of a command's body: its state, a raise that undoes it (60_exceptions.md R300), or a stop. -/
def settle (p : Packet) (s : State) : Except Abort State → Host.Outcome State Fault Refusal
  | .ok t => .next t
  | .error (.raise id info) => .next (s.raise p id info)
  | .error (.stop f) => .fault f

/-- A command that has decoded (60_exceptions.md R301): refused after a fault, F_NO_CART where a lifecycle check
fails, and else its body, which makes the checks of items 5 and 6. -/
def runCommand (p : Packet) (g : Gate) (body : State → Except Abort State) (s : State) :
    Host.Outcome State Fault Refusal :=
  if s.faulted.isSome then .next s.refuse
  else if g.passes s = false then .next (s.raise p .noCart .none)
  else settle p s (body s.clearOutputs)

/-- A packet that does not decode (60_exceptions.md R301 item 2, R303). -/
def runIllegal (p : Packet) (s : State) : Host.Outcome State Fault Refusal :=
  runCommand p .none (fun _ => .error (.raise .illegalCmd (.packet p))) s

/-- `tick(c)` (42_scheduler.md R200). -/
def State.tick (c : Cycle) (s : State) : Except Abort State :=
  if c < s.cc ∨ s.params.rebaseLimit ≤ c.toNat then .error (.raise .contract (.cycle c)) else .ok { s with cc := c }

/-- The check of the LY view at cycle `c` (42_scheduler.md R210). -/
def lyViewOk (s : State) (c : Cycle) : Bool :=
  decide (s.inputs.ly.toNat ≤ s.params.lastLine) && decide (0 < (s.inputs.lyTime - c).toNat) &&
    decide ((s.inputs.lyTime - c).toNat ≤ dsShift s.ds s.params.lineCycles)

/-- Raise F_CONTRACT on an LY view that fails the check (42_scheduler.md R210). -/
def State.checkLyView (c : Cycle) (s : State) : Except Abort State :=
  if lyViewOk s c then .ok s else .error (.raise .contract (.lyView s.inputs.ly s.inputs.lyTime))

/-! ## The command stream -/

/-- A command arrives ahead of those that wait, with the port values that stand (log 1). -/
def State.pushCommand (p : Packet) (s : State) : State :=
  { s with commands := ⟨p, s.inputs⟩ :: s.commands }

/-- Take the first command: its packet, and the state with its port values presented (log 1, log 3). -/
def State.takeCommand (s : State) : Option (Packet × State) :=
  match s.commands with
  | [] => none
  | c :: rest => some (c.packet, { s with commands := rest, inputs := c.inputs })

end Sys2Proof.Machine
end

