-- ==== Sys2Proof/Machine/BankWindow.lean ====
section
/-! DEFINITION. Bank window operations (40_bank_window_ops.md): RESET, SET_ROMBANK0, SET_ROMBANK, SET_RAMBANK,
SET_WRAMBANK, SET_VRAMBANK, SET_OAMDMASRC. Each mutator ends by deriving the whole window table (20_memory.md R83). -/

namespace Sys2Proof.Machine

open Sys2Proof

/-- The legal geometry (00_scope.md R8); the other bounds of the rule are those of the field widths. -/
def geometryLegal (romBanks : BitVec 16) (wramBanks : BitVec 4) : Bool :=
  decide (2 ≤ romBanks.toNat) && decide (2 ≤ wramBanks.toNat) && decide (wramBanks.toNat ≤ 8)

/-- The Backing Store after a successful RESET (R130): the cartridge image, the sentinel at 0xFF, the rest drawn
(log 5). -/
def freshArena (g : Geometry) (p : Inputs) : Arena where
  rom := Memory.ofCells (Region.fill .rom) (Region.length g .rom) p.romImg
  vram := Memory.ofCells (Region.fill .vram) (Region.length g .vram) p.drawn.vram
  sram := Memory.ofCells (Region.fill .sram) (Region.length g .sram) p.drawn.sram
  wram := Memory.ofCells (Region.fill .wram) (Region.length g .wram) p.drawn.wram
  disr := []
  hi := Memory.ofCells (Region.fill .hi) (Region.length g .hi) p.drawn.hi

/-- The default mapping after RESET (R130). -/
def freshBanks : Banks where
  rombank0 := 0
  rombank := 1
  rambank := 0
  ramFlags := 0
  vrambank := 0
  wrambankSel := 1
  oamDmaSrc := .off

/-- The body of RESET (R130). `dmaReg` is unspecified after it (10_state.md R36, R38): a free value (log 11). -/
def resetBody (romBanks : BitVec 16) (ramBanks : BitVec 8) (wramBanks : BitVec 4) (isCgb : Bool) (s : State) :
    Except Abort State :=
  if geometryLegal romBanks wramBanks = false then
    .error (.raise .bank (.geometry romBanks ramBanks wramBanks isCgb))
  else
    let s := { s with loaded := false, running := false }
    if s.inputs.alloc = false then .ok (s.respond (.bit false))
    else
      let g : Geometry := { romBanks, ramBanks, wramBanks, isCgb }
      let (reg, s) := s.drawByte
      let s := { s with geo := g, arena := freshArena g s.inputs, banks := freshBanks,
                        dma := { dmaReg := reg, dmaPos := 0 } }
      let s := (s.setTime .oamDma disabled).derive
      .ok (State.respond (.bit true) { s with loaded := true })

/-- RESET (R130). -/
def execReset (romBanks : BitVec 16) (ramBanks : BitVec 8) (wramBanks : BitVec 4) (isCgb : Bool) (s : State) :
    Host.Outcome State Fault Refusal :=
  runCommand (encode (.reset romBanks ramBanks wramBanks isCgb)) .none (resetBody romBanks ramBanks wramBanks isCgb) s

/-- Select the bank of the fixed ROM window (R134). -/
def selectRombank0 (bank : BitVec 16) (s : State) : Except Abort State :=
  if s.geo.romBanks ≤ bank then .error (.raise .bank (.bank bank))
  else .ok (State.derive { s with banks := { s.banks with rombank0 := bank } })

/-- SET_ROMBANK0 (R134). -/
def execSetRombank0 (bank : BitVec 16) (s : State) : Host.Outcome State Fault Refusal :=
  runCommand (encode (.setRombank0 bank)) .loaded (selectRombank0 bank) s

/-- Select the bank of the switchable ROM window (R136). -/
def selectRombank (bank : BitVec 16) (s : State) : Except Abort State :=
  if s.geo.romBanks ≤ bank then .error (.raise .bank (.bank bank))
  else .ok (State.derive { s with banks := { s.banks with rombank := bank } })

/-- SET_ROMBANK (R136). -/
def execSetRombank (bank : BitVec 16) (s : State) : Host.Outcome State Fault Refusal :=
  runCommand (encode (.setRombank bank)) .loaded (selectRombank bank) s

/-- Select the cartridge RAM bank and its enables (R138). -/
def selectRambank (bank : BitVec 8) (flags : BitVec 3) (s : State) : Except Abort State :=
  if s.geo.ramBanks ≠ 0 ∧ s.geo.ramBanks ≤ bank then .error (.raise .bank (.bank (bank.setWidth 16)))
  else .ok (State.derive { s with banks := { s.banks with rambank := bank, ramFlags := flags } })

/-- SET_RAMBANK (R138). -/
def execSetRambank (bank : BitVec 8) (flags : BitVec 3) (s : State) : Host.Outcome State Fault Refusal :=
  runCommand (encode (.setRambank bank flags)) .loaded (selectRambank bank flags) s

/-- Select the switchable WRAM bank: only bits 2:0 of the operand count, and selection 0 aliases to bank 1 (R141). -/
def selectWrambank (bank : BitVec 16) (s : State) : Except Abort State :=
  if s.geo.wramBanks.toNat ≤ wramBankOf (bank.extractLsb' 0 3) then .error (.raise .bank (.bank bank))
  else .ok (State.derive { s with banks := { s.banks with wrambankSel := bank.extractLsb' 0 3 } })

/-- SET_WRAMBANK (R141). -/
def execSetWrambank (bank : BitVec 16) (s : State) : Host.Outcome State Fault Refusal :=
  runCommand (encode (.setWrambank bank)) .loaded (selectWrambank bank) s

/-- Select the VRAM bank of the slow path (R143). -/
def selectVrambank (bank : BitVec 16) (s : State) : Except Abort State :=
  if 1 < bank.toNat then .error (.raise .bank (.bank bank))
  else .ok (State.derive { s with banks := { s.banks with vrambank := bank.extractLsb' 0 1 } })

/-- SET_VRAMBANK (R143). -/
def execSetVrambank (bank : BitVec 16) (s : State) : Host.Outcome State Fault Refusal :=
  runCommand (encode (.setVrambank bank)) .loaded (selectVrambank bank) s

/-- SET_OAMDMASRC (R145). The codes 6 and 7 raise F_ILLEGAL_CMD, before the lifecycle checks (60_exceptions.md R301);
the decoder already rejects them (log 24). -/
def execSetOamDmaSrc (src : BitVec 3) (s : State) : Host.Outcome State Fault Refusal :=
  match DmaSrc.ofCode src.toNat with
  | none => runIllegal (encode (.setOamDmaSrc src)) s
  | some d => runCommand (encode (.setOamDmaSrc src)) .loaded (fun t => .ok (t.setDmaSrc d)) s

end Sys2Proof.Machine
end

