-- ==== Sys2Proof/Machine/Units.lean ====
section
/-! DEFINITION. The five scheduled units (42_scheduler.md R201): the trigger formulas and dispatches of LYC, DIV/TIMA,
SERIAL and BLIT, and the OAM DMA sequencer. -/

namespace Sys2Proof.Machine

open Sys2Proof

/-! ## LYC (R218 to R222) -/

/-- `lycSchedule(S, LYV, c)` (R220). -/
def lycSchedule (s : State) (c : Cycle) : Cycle :=
  if s.params.lastLine < s.lyc.lycReg.toNat then disabled
  else
    let target :=
      if s.lyc.lycReg ≠ 0 then s.lyc.lycReg.toNat * s.params.lineCycles
      else s.params.lastLine * s.params.lineCycles + s.params.lyc0Offset
    let t := s.inputs.lyTime
      + BitVec.ofNat 32 (dsShift s.ds ((s.params.lastLine - s.inputs.ly.toNat) * s.params.lineCycles + target)) - 1
    if dsShift s.ds s.params.frameCycles < (t - c).toNat then t - BitVec.ofNat 32 (dsShift s.ds s.params.frameCycles)
    else t

/-- The literal condition under which a LYC dispatch raises the request (R221, 90_conflicts.md C4). -/
def lycRaises (s : State) : Bool :=
  !s.lyc.lycEnable || decide (s.params.lycVisibleMax < s.lyc.lycReg.toNat) || s.lyc.lycReg == 0

/-- LYC dispatch at time `t` (R221). -/
def lycDispatch (t : Cycle) (s : State) : State :=
  (if lycRaises s then s.raiseIrq irqLcdStatus else s).setTime .lyc
    (t + BitVec.ofNat 32 (dsShift s.ds s.params.frameCycles))

/-! ## DIV/TIMA (R223 to R227) -/

/-- `P_TIMA_PERIOD[tac[1:0]]` (R223). -/
def timaPeriod (p : Params) (tac : BitVec 3) : Nat :=
  match (tac.extractLsb' 0 2).toNat with
  | 0 => p.timaPeriod0
  | 1 => p.timaPeriod1
  | 2 => p.timaPeriod2
  | _ => p.timaPeriod3

/-- `tac[2]`: TIMA runs (R223). -/
def timaRuns (u : TimerUnit) : Bool := u.tac.getLsbD 2

/-- `floor((x -32 divBase) / P)`, the increments since the divider was zeroed (R223). -/
def timaTicks (p : Params) (u : TimerUnit) (x : Cycle) : Nat := (x - u.divBase).toNat / timaPeriod p u.tac

/-- `incs(x, y)` (R223). -/
def incs (p : Params) (u : TimerUnit) (x y : Cycle) : Int := (timaTicks p u y : Int) - (timaTicks p u x : Int)

/-- TIMA after the increments in `(timaLast, c]`, modulo 256 (R224, R226). -/
def timaAdvanced (p : Params) (u : TimerUnit) (c : Cycle) : Byte :=
  BitVec.ofInt 8 (u.tima.toNat + incs p u u.timaLast c)

/-- Whether a TIMA read at `c` is any value: an overflow is due and not dispatched, or one was less than the reload
window ago (R224). -/
def timaReadOpen (s : State) (c : Cycle) : Bool :=
  (s.time.tima != disabled && decide (s.time.tima ≤ c)) ||
    match s.timer.lastOvf with
    | none => false
    | some o => decide ((c - o).toNat < s.params.timaReloadWindow)

/-- `timaAt(c)`, the TIMA read value (R224); only a drawn value changes the state, in its draw count. -/
def timaAt (c : Cycle) (s : State) : Byte × State :=
  if timaRuns s.timer = false then (s.timer.tima, s)
  else if timaReadOpen s c then s.drawByte
  else (timaAdvanced s.params s.timer c, s)

/-- `timaSchedule(S, c)` (R225). -/
def timaSchedule (p : Params) (u : TimerUnit) (c : Cycle) : Cycle :=
  if timaRuns u = false then disabled
  else u.divBase + BitVec.ofNat 32 ((timaTicks p u c + (256 - u.tima.toNat)) * timaPeriod p u.tac)

/-- Set the TIMA trigger afresh from the registers (R225, R226). -/
def State.rescheduleTima (c : Cycle) (s : State) : State := s.setTime .tima (timaSchedule s.params s.timer c)

/-- `timaOverflow(t)`, TIMA dispatch at time `t` (R227). -/
def timaOverflow (t : Cycle) (s : State) : State :=
  (State.raiseIrq irqTimer
      { s with timer := { s.timer with tima := s.timer.tma, timaLast := t, lastOvf := some t } }).setTime .tima
    (t + BitVec.ofNat 32 ((256 - s.timer.tma.toNat) * timaPeriod s.params s.timer.tac))

/-- The loop of `timaRun` (R226): perform overdue overflows, each at its own time. `fuel` bounds the number of rounds;
each overflow moves the trigger on by at least one cycle, so `timaRun` supplies enough (log 19). -/
def timaCatchUp : Nat → Cycle → State → State
  | 0, _, s => s
  | fuel + 1, c, s =>
    if s.time.tima ≠ disabled ∧ s.time.tima ≤ c then timaCatchUp fuel c (timaOverflow s.time.tima s) else s

/-- `timaRun(c)` (R226). -/
def timaRun (c : Cycle) (s : State) : State :=
  let s := if timaRuns s.timer then
      let s := timaCatchUp ((c - s.time.tima).toNat + 1) c s
      { s with timer := { s.timer with tima := timaAdvanced s.params s.timer c } }
    else s
  { s with timer := { s.timer with timaLast := c } }

/-- The extra increment of `P_DIV_WRITE_GLITCH` (R225): none by default; with the parameter set, a DIV write while
TIMA runs increments it once more, and overflows it when it stands at 0xFF (log 14). -/
def divGlitch (c : Cycle) (s : State) : State :=
  if s.params.divWriteGlitch && timaRuns s.timer then
    if s.timer.tima = 0xFF then timaOverflow c s
    else { s with timer := { s.timer with tima := s.timer.tima + 1 } }
  else s

/-- `timerDivWrite(c)` (R225). -/
def timerDivWrite (c : Cycle) (s : State) : State :=
  let s := divGlitch c (timaRun c s)
  State.rescheduleTima c { s with timer := { s.timer with divBase := c, timaLast := c } }

/-- `timerTimaWrite(v, c)` (R226). -/
def timerTimaWrite (v : Byte) (c : Cycle) (s : State) : State :=
  let s := timaRun c s
  State.rescheduleTima c { s with timer := { s.timer with tima := v } }

/-- `timerTmaWrite(v, c)` (R226). -/
def timerTmaWrite (v : Byte) (c : Cycle) (s : State) : State :=
  let s := timaRun c s
  State.rescheduleTima c { s with timer := { s.timer with tma := v } }

/-- `timerTacWrite(v, c)` (R226). -/
def timerTacWrite (v : BitVec 3) (c : Cycle) (s : State) : State :=
  let s := timaRun c s
  State.rescheduleTima c { s with timer := { s.timer with tac := v, timaLast := c } }

/-- The divider value `D(c)` (R223). -/
def divider (u : TimerUnit) (c : Cycle) : BitVec 16 := (c - u.divBase).extractLsb' 0 16

/-- The DIV read value (41_bus_access.md R184): the divider shifted right by P_DIV_SHIFT, its low byte (log 23). -/
def divRead (p : Params) (u : TimerUnit) (c : Cycle) : Byte := (divider u c >>> p.divShift).extractLsb' 0 8

/-! ## SERIAL (R228, R229) -/

/-- `serialPeriod(S)` (R228). -/
def serialPeriod (s : State) : Nat :=
  if s.geo.isCgb && s.serial.sc.getLsbD 1 then s.params.serialBitFast else s.params.serialBitSlow

/-- `serialControl(v, c)`, the SC write (R228). -/
def serialControl (v : Byte) (c : Cycle) (s : State) : State :=
  let s := { s with serial := { s.serial with sc := v } }
  if v.getLsbD 7 && v.getLsbD 0 then
    State.setTime .serial (c + BitVec.ofNat 32 (serialPeriod s)) { s with serial := { s.serial with serialBits := 8 } }
  else
    State.setTime .serial disabled { s with serial := { s.serial with serialBits := 0 } }

/-- The bits left after one bit clock (R229). Where none was left (reachable only by LOAD_STATE) the rule states no
value; it is then a free value from 0 to 8, the field's range (log 12). -/
def serialBitsLeft (s : State) : BitVec 4 × State :=
  if s.serial.serialBits = 0 then
    (BitVec.ofNat 4 ((Config.freeByte s.draws).toNat % 9), { s with draws := s.draws + 1 })
  else (s.serial.serialBits - 1, s)

/-- SERIAL dispatch at time `t` (R229). -/
def serialDispatch (t : Cycle) (s : State) : State :=
  let s := { s with serial := { s.serial with sb := (s.serial.sb <<< 1) ||| 1 } }
  let (left, s) := serialBitsLeft s
  let s := { s with serial := { s.serial with serialBits := left } }
  if left = 0 then
    State.setTime .serial disabled
      (State.raiseIrq irqSerial { s with serial := { s.serial with sc := s.serial.sc &&& 0x7F } })
  else s.setTime .serial (t + BitVec.ofNat 32 (serialPeriod s))

/-! ## BLIT (R230, R231) -/

/-- `blitSchedule(S, LYV, c)` (R230). -/
def blitSchedule (s : State) (c : Cycle) : Cycle :=
  let t := s.inputs.lyTime
    + BitVec.ofNat 32 (dsShift s.ds ((s.params.lastLine - s.inputs.ly.toNat) * s.params.lineCycles
        + s.params.vblankLine * s.params.lineCycles))
  if dsShift s.ds s.params.frameCycles < (t - c).toNat then t - BitVec.ofNat 32 (dsShift s.ds s.params.frameCycles)
  else t

/-- BLIT dispatch at time `t` (R231). -/
def blitDispatch (t : Cycle) (s : State) : State :=
  State.setTime .blit (t + BitVec.ofNat 32 (dsShift s.ds s.params.frameCycles)) { s with frameDone := true }

/-! ## OAM DMA (R234 to R237) -/

/-- `dmaStart(v, c)`, the DMA register write (R234). -/
def dmaStart (v : Byte) (c : Cycle) (s : State) : State :=
  State.setTime .oamDma (c + BitVec.ofNat 32 s.params.dmaStartDelay) { s with dma := { dmaReg := v, dmaPos := 0 } }

/-- The source address of the next byte, `{dmaReg, 0x00} + dmaPos` (R236). -/
def dmaSourceAddr (u : DmaUnit) : Nat := u.dmaReg.toNat * 256 + u.dmaPos.toNat

/-- `dmaSourceByte(s)`, the DMA's own read of source address `a`, through the base mapping (R237). -/
def dmaSourceByte (a : Nat) (s : State) : Except Abort (Byte × State) := do
  if a < 0x4000 then
    return (← s.readArena .rom (s.banks.rombank0.toNat * 0x4000 + a), s)
  else if a < 0x8000 then
    return (← s.readArena .rom (s.banks.rombank.toNat * 0x4000 + (a - 0x4000)), s)
  else if a < 0xA000 then
    if s.inputs.vramOk then return (← s.readArena .vram (s.banks.vrambank.toNat * 0x2000 + (a - 0x8000)), s)
    else return s.drawByte
  else if a < 0xC000 then
    match ramR s.geo s.banks with
    | .win r bias => return (← s.readArena r (bias + a), s)
    | .slow => return (s.inputs.cartRd, s)
  else if a < 0xD000 then
    return (← s.readArena .wram (a - 0xC000), s)
  else if a < 0xE000 then
    return (← s.readArena .wram (s.banks.wramEff * 0x1000 + (a - 0xD000)), s)
  else return s.drawByte

/-- OAMDMA dispatch at time `t`, one DMA step (R236), to the letter whatever the position; `dmaPos` is 8 bits wide
(10_state.md R36, log 13). -/
def dmaDispatch (t : Cycle) (s : State) : Except Abort State := do
  let src := dmaClass s.dma.dmaReg
  let s := if s.banks.oamDmaSrc = src then s else s.setDmaSrc src
  let (v, s) ← dmaSourceByte (dmaSourceAddr s.dma) s
  let s ← s.writeArena .hi s.dma.dmaPos.toNat v
  let s := { s with dma := { s.dma with dmaPos := s.dma.dmaPos + 1 } }
  if s.dma.dmaPos.toNat = s.params.dmaBytes then return (s.setDmaSrc .off).setTime .oamDma disabled
  else return s.setTime .oamDma (t + BitVec.ofNat 32 s.params.dmaByteCycles)

/-! ## The driver (R201) -/

/-- Dispatch unit `u` at its trigger time `t` (R201, R204). -/
def dispatch (u : SchedUnit) (t : Cycle) (s : State) : Except Abort State :=
  match u with
  | .blit => .ok (blitDispatch t s)
  | .serial => .ok (serialDispatch t s)
  | .oamDma => dmaDispatch t s
  | .tima => .ok (timaOverflow t s)
  | .lyc => .ok (lycDispatch t s)

end Sys2Proof.Machine
end

