-- ==== Sys2Proof/Machine/Bus.lean ====
section
/-! DEFINITION. Bus access (41_bus_access.md): READ, WRITE, FF_READ, FF_WRITE, the slow-path handlers and the core
I/O registers. -/

namespace Sys2Proof.Machine

open Sys2Proof

/-! ## Addresses behind the slow path -/

/-- The VRAM byte of an address in 0x8000-0x9FFF (R162). -/
def vramIndex (b : Banks) (a : Addr) : Int := b.vrambank.toNat * 0x2000 + (a.toNat - 0x8000)
/-- The WRAM byte of an address in 0xF000-0xFDFF, the echo of the switchable bank (R165). -/
def echoIndex (b : Banks) (a : Addr) : Int := b.wramEff * 0x1000 + (a.toNat - 0xF000)
/-- The HI byte of an address in 0xFE00-0xFFFF (10_state.md R23). -/
def hiIndex (a : Addr) : Int := a.toNat - 0xFE00
/-- The HI byte of HRAM offset `p` (R194). -/
def hramIndex (p : Byte) : Int := 0x100 + p.toNat

/-! ## Reads -/

/-- The read rule of `0xFF00 + p` at cycle `c`, `ffRead` (R180, R182 to R194). -/
def ffRead (p : Byte) (c : Cycle) (s : State) : Except Abort (Byte × State) :=
  match ioReg s.geo.isCgb p with
  | .sb => .ok (s.serial.sb, s)
  | .sc => .ok (s.drawUnder 0x83 s.serial.sc)
  | .div => .ok (divRead s.params s.timer c, s)
  | .tima => .ok (timaAt c s)
  | .tma => .ok (s.timer.tma, s)
  | .tac => .ok (s.drawUnder 0x07 (s.timer.tac.setWidth 8))
  | .intFlag => .ok (s.drawUnder 0x1F (s.irq.IF.setWidth 8))
  | .dma => .ok (s.dma.dmaReg, s)
  | .vbk => .ok (s.drawUnder 0x01 (s.banks.vrambank.setWidth 8))
  | .svbk => .ok (s.drawUnder 0x07 (s.banks.wrambankSel.setWidth 8))
  | .intEnable => .ok (s.irq.IE, s)
  | .hram => do return (← s.readArena .hi (hramIndex p), s)
  | .delegated => .ok (s.inputs.extRd, s)

/-- slowRead of VRAM (R162). -/
def slowReadVram (a : Addr) (s : State) : Except Abort (Byte × State) :=
  if s.banks.oamDmaSrc = .vram then .ok s.drawByte
  else if s.inputs.vramOk then do return (← s.readArena .vram (vramIndex s.banks a), s)
  else .ok (0xFF, s)

/-- slowRead of the echo of the switchable WRAM bank (R165). -/
def slowReadEcho (a : Addr) (s : State) : Except Abort (Byte × State) :=
  if s.wramBlocked then .ok s.drawByte
  else do return (← s.readArena .wram (echoIndex s.banks a), s)

/-- slowRead of OAM (R166). -/
def slowReadOam (a : Addr) (s : State) : Except Abort (Byte × State) :=
  if s.banks.oamDmaSrc ≠ .off then .ok s.drawByte
  else if s.inputs.oamOk then do return (← s.readArena .hi (hiIndex a), s)
  else .ok (0xFF, s)

/-- slowRead by address range (R161 to R168). -/
def slowRead (a : Addr) (c : Cycle) (s : State) : Except Abort (Byte × State) :=
  if a.toNat < 0x8000 then .ok s.drawByte
  else if a.toNat < 0xA000 then slowReadVram a s
  else if a.toNat < 0xC000 then (if s.sramBlocked then .ok s.drawByte else .ok (s.inputs.cartRd, s))
  else if a.toNat < 0xF000 then .ok s.drawByte
  else if a.toNat < 0xFE00 then slowReadEcho a s
  else if a.toNat < 0xFEA0 then slowReadOam a s
  else if a.toNat < 0xFF00 then .ok (0xFF, s)
  else ffRead (a.extractLsb' 0 8) c s

/-- The byte READ answers: the window's, or the slow path's (R160, 20_memory.md R76). -/
def busRead (a : Addr) (c : Cycle) (s : State) : Except Abort (Byte × State) :=
  match s.readEntry a with
  | .win r bias => do return (← s.readArena r (bias + a.toNat), s)
  | .slow => slowRead a c s

/-! ## Writes -/

/-- The write rule of `0xFF00 + p` at cycle `c`, `ffWrite` (R181 to R194). Only HRAM stores into HI. Whether a write of
another I/O register, or of IE, also updates its byte of HI ("I/O shadow, IE shadow", 44_save_state.md R281; "I/O
writes", 10_state.md R23) is read from the pseudocode of R181 and the expected results M15 and P1 of 95_test_vectors.md:
it does not (DEDUCED, log 27). -/
def ffWrite (p : Byte) (v : Byte) (c : Cycle) (s : State) : Except Abort State :=
  match ioReg s.geo.isCgb p with
  | .sb => .ok { s with serial := { s.serial with sb := v } }
  | .sc => .ok (serialControl v c s)
  | .div => .ok (timerDivWrite c s)
  | .tima => .ok (timerTimaWrite v c s)
  | .tma => .ok (timerTmaWrite v c s)
  | .tac => .ok (timerTacWrite (v.extractLsb' 0 3) c s)
  | .intFlag => .ok (State.wakeRule { s with irq := { s.irq with IF := v.extractLsb' 0 5 } })
  | .dma => .ok (dmaStart v c s)
  | .vbk => selectVrambank ((v.extractLsb' 0 1).setWidth 16) s
  | .svbk => selectWrambank ((v.extractLsb' 0 3).setWidth 16) s
  | .intEnable => .ok (State.wakeRule { s with irq := { s.irq with IE := v } })
  | .hram => s.writeArena .hi (hramIndex p) v
  | .delegated => .ok (s.emitExt p v c)

/-- `contendedWrite(a, v, c)`: as a drawn bit says, the write the table would perform with no DMA active, or nothing.
Where the base window is slow (RTC selected) that write is a CARTCTL output (R174, log 15). -/
def contendedWrite (a : Addr) (v : Byte) (c : Cycle) (s : State) : Except Abort State :=
  match baseW s.geo s.banks (nibble a) with
  | .win r bias => s.writeArenaMaybe r (bias + a.toNat) v
  | .discard => .ok s.drawBool.2
  | .slow =>
    let (lands, s) := s.drawBool
    .ok { s with outputs := { s.outputs with cartCtl := if lands then some ⟨a, v, c⟩ else s.outputs.cartCtl } }

/-- slowWrite of VRAM (R173). -/
def slowWriteVram (a : Addr) (v : Byte) (s : State) : Except Abort State :=
  if s.banks.oamDmaSrc = .vram then s.writeArenaMaybe .vram (vramIndex s.banks a) v
  else if s.inputs.vramOk then s.writeArena .vram (vramIndex s.banks a) v
  else .ok s

/-- slowWrite of the echo of the switchable WRAM bank (R176). -/
def slowWriteEcho (a : Addr) (v : Byte) (s : State) : Except Abort State :=
  if s.wramBlocked then s.writeArenaMaybe .wram (echoIndex s.banks a) v
  else s.writeArena .wram (echoIndex s.banks a) v

/-- slowWrite of OAM (R177). -/
def slowWriteOam (a : Addr) (v : Byte) (s : State) : Except Abort State :=
  if s.banks.oamDmaSrc ≠ .off then s.writeArenaMaybe .hi (hiIndex a) v
  else if s.inputs.oamOk then s.writeArena .hi (hiIndex a) v
  else .ok s

/-- slowWrite by address range (R171 to R178). -/
def slowWrite (a : Addr) (v : Byte) (c : Cycle) (s : State) : Except Abort State :=
  if a.toNat < 0x8000 then .ok (s.emitCart a v c)
  else if a.toNat < 0xA000 then slowWriteVram a v s
  else if a.toNat < 0xC000 then (if s.sramBlocked then contendedWrite a v c s else .ok (s.emitCart a v c))
  else if a.toNat < 0xF000 then contendedWrite a v c s
  else if a.toNat < 0xFE00 then slowWriteEcho a v s
  else if a.toNat < 0xFEA0 then slowWriteOam a v s
  else if a.toNat < 0xFF00 then .ok s
  else ffWrite (a.extractLsb' 0 8) v c s

/-- What WRITE does to the state: the window's store, nothing, or the slow path (R170, 20_memory.md R76). -/
def busWrite (a : Addr) (v : Byte) (c : Cycle) (s : State) : Except Abort State :=
  match s.writeEntry a with
  | .win r bias => s.writeArena r (bias + a.toNat) v
  | .discard => .ok s
  | .slow => slowWrite a v c s

/-! ## The commands -/

/-- The body of READ (R160). -/
def readBody (a : Addr) (c : Cycle) (s : State) : Except Abort State := do
  let s ← s.tick c
  let (v, s) ← busRead a c s
  return s.respond (.byte v)

/-- READ (R160). -/
def execRead (a : Addr) (c : Cycle) (s : State) : Host.Outcome State Fault Refusal :=
  runCommand (encode (.read a c)) .running (readBody a c) s

/-- The body of WRITE (R170). -/
def writeBody (a : Addr) (v : Byte) (c : Cycle) (s : State) : Except Abort State := do
  let s ← s.tick c
  busWrite a v c s

/-- WRITE (R170). -/
def execWrite (a : Addr) (v : Byte) (c : Cycle) (s : State) : Host.Outcome State Fault Refusal :=
  runCommand (encode (.write a v c)) .running (writeBody a v c) s

/-- The body of FF_READ (R180). -/
def ffReadBody (p : Byte) (c : Cycle) (s : State) : Except Abort State := do
  let s ← s.tick c
  let (v, s) ← ffRead p c s
  return s.respond (.byte v)

/-- FF_READ (R180). -/
def execFfRead (p : Byte) (c : Cycle) (s : State) : Host.Outcome State Fault Refusal :=
  runCommand (encode (.ffRead p c)) .running (ffReadBody p c) s

/-- The body of FF_WRITE (R181). -/
def ffWriteBody (p : Byte) (v : Byte) (c : Cycle) (s : State) : Except Abort State := do
  let s ← s.tick c
  ffWrite p v c s

/-- FF_WRITE (R181). -/
def execFfWrite (p : Byte) (v : Byte) (c : Cycle) (s : State) : Host.Outcome State Fault Refusal :=
  runCommand (encode (.ffWrite p v c)) .running (ffWriteBody p v c) s

end Sys2Proof.Machine
end

