-- ==== Sys2Proof/Machine/IrqHalt.lean ====
section
/-! DEFINITION. The interrupt controller and halt gate (43_irq_halt.md): HALT, EI, DI, IME, HALTED, IRQ_IN. -/

namespace Sys2Proof.Machine

open Sys2Proof

/-- HALT (R260). -/
def execHalt (s : State) : Host.Outcome State Fault Refusal :=
  runCommand (encode .halt) .running (fun s => .ok (State.wakeRule { s with irq := { s.irq with halted := true } })) s

/-- The body of EI (R261). -/
def eiBody (c : Cycle) (s : State) : Except Abort State := do
  let s ← s.tick c
  return { s with irq := { s.irq with ime := true, eiCycle := c } }

/-- EI (R261). -/
def execEi (c : Cycle) (s : State) : Host.Outcome State Fault Refusal :=
  runCommand (encode (.ei c)) .running (eiBody c) s

/-- DI (R262). -/
def execDi (s : State) : Host.Outcome State Fault Refusal :=
  runCommand (encode .di) .running (fun s => .ok { s with irq := { s.irq with ime := false } }) s

/-- IME (R263). -/
def execIme (s : State) : Host.Outcome State Fault Refusal :=
  runCommand (encode .ime) .running (fun s => .ok (s.respond (.bit s.irq.ime))) s

/-- HALTED (R264). -/
def execHalted (s : State) : Host.Outcome State Fault Refusal :=
  runCommand (encode .halted) .running (fun s => .ok (s.respond (.bit s.irq.halted))) s

/-- The body of IRQ_IN (R265). -/
def irqInBody (m : BitVec 5) (c : Cycle) (s : State) : Except Abort State := do
  let s ← s.tick c
  return s.raiseIrq m

/-- IRQ_IN (R265). -/
def execIrqIn (m : BitVec 5) (c : Cycle) (s : State) : Host.Outcome State Fault Refusal :=
  runCommand (encode (.irqIn m c)) .running (irqInBody m c) s

end Sys2Proof.Machine
end

