-- ==== Sys2Proof/Machine/SaveState.lean ====
section
/-! DEFINITION. Save state (44_save_state.md): the blob of R281 and its size (R282), STATE_SIZE, SAVE_STATE,
LOAD_STATE. -/

namespace Sys2Proof.Machine

open Sys2Proof

/-! ## Little-endian fields (R280) -/

/-- The two bytes of a 16-bit field. -/
def le16 (x : BitVec 16) : List Byte := [x.extractLsb' 0 8, x.extractLsb' 8 8]

/-- The four bytes of a 32-bit field. -/
def le32 (x : BitVec 32) : List Byte :=
  [x.extractLsb' 0 8, x.extractLsb' 8 8, x.extractLsb' 16 8, x.extractLsb' 24 8]

/-- The byte at an offset of a blob. -/
def blobByte (buf : List Byte) (off : Nat) : Byte := buf.getD off 0

/-- The 16-bit field at an offset of a blob. -/
def blob16 (buf : List Byte) (off : Nat) : BitVec 16 := blobByte buf (off + 1) ++ blobByte buf off

/-- The 32-bit field at an offset of a blob. -/
def blob32 (buf : List Byte) (off : Nat) : BitVec 32 :=
  blobByte buf (off + 3) ++ blobByte buf (off + 2) ++ blobByte buf (off + 1) ++ blobByte buf off

/-- Whether a list has `n` entries, counted down so that it can be evaluated on long blobs. -/
def hasLength {α : Type} : List α → Nat → Bool
  | [], n => n == 0
  | _ :: rest, n => match n with
    | 0 => false
    | k + 1 => hasLength rest k

/-! ## The layout (R281, R282) -/

/-- `stateSize(S)` (R282). -/
def stateSize (g : Geometry) : Nat := 0x4240 + g.wramBanks.toNat * 0x1000 + g.ramBanks.toNat * 0x2000

/-- The flags byte at 0x04 (R281): b0 ds, b1 ime, b2 halted, b3 frameDone, b4 lycEnable, b5 lastOvf present. -/
def flagsByte (s : State) : Byte :=
  0#2 ++ BitVec.ofBool s.timer.lastOvf.isSome ++ BitVec.ofBool s.lyc.lycEnable ++ BitVec.ofBool s.frameDone
    ++ BitVec.ofBool s.irq.halted ++ BitVec.ofBool s.irq.ime ++ BitVec.ofBool s.ds

/-- The header, offsets 0x00 to 0x3F (R281). -/
def headerBytes (s : State) : List Byte :=
  le32 s.cc ++ [flagsByte s, s.irq.IF.setWidth 8, s.irq.IE, s.lyc.lycReg] ++ le32 s.irq.eiCycle
    ++ le16 s.banks.rombank0 ++ le16 s.banks.rombank
    ++ [s.banks.rambank, s.banks.ramFlags.setWidth 8, s.banks.wrambankSel.setWidth 8, s.banks.vrambank.setWidth 8,
        s.banks.oamDmaSrc.code, s.dma.dmaPos, s.dma.dmaReg, 0]
    ++ le32 s.time.blit ++ le32 s.time.serial ++ le32 s.time.oamDma ++ le32 s.time.tima ++ le32 s.time.lyc
    ++ le32 s.timer.divBase ++ le32 s.timer.timaLast ++ le32 (s.timer.lastOvf.getD 0)
    ++ [s.timer.tima, s.timer.tma, s.timer.tac.setWidth 8, s.serial.sb, s.serial.sc, s.serial.serialBits.setWidth 8,
        0, 0]

/-- The bytes of a whole region, in order. -/
def regionBytes (r : Region) (s : State) : List Byte := Memory.toBytes r.fill (r.length s.geo) (s.arena.get r)

/-- The blob (R281): the header, then HI, VRAM, WRAM and SRAM. -/
def saveBlob (s : State) : List Byte :=
  headerBytes s ++ regionBytes .hi s ++ regionBytes .vram s ++ regionBytes .wram s ++ regionBytes .sram s

/-! ## Loading (R281, R286) -/

/-- The "valid on load" column of R281: each offset that has a condition, with whether it holds, in order of offset. -/
def blobChecks (p : Params) (g : Geometry) (buf : List Byte) : List (Nat × Bool) :=
  [ (0x00, decide ((blob32 buf 0x00).toNat < p.rebaseLimit)),
    (0x04, decide ((blobByte buf 0x04).toNat < 0x40)),
    (0x05, decide ((blobByte buf 0x05).toNat < 0x20)),
    (0x0C, decide (blob16 buf 0x0C < g.romBanks)),
    (0x0E, decide (blob16 buf 0x0E < g.romBanks)),
    (0x10, decide (g.ramBanks = 0 ∨ blobByte buf 0x10 < g.ramBanks)),
    (0x11, decide ((blobByte buf 0x11).toNat < 8)),
    (0x12, decide ((blobByte buf 0x12).toNat < 8 ∧
      wramBankOf ((blobByte buf 0x12).extractLsb' 0 3) < g.wramBanks.toNat)),
    (0x13, decide ((blobByte buf 0x13).toNat < 2)),
    (0x14, decide ((blobByte buf 0x14).toNat ≤ 5)),
    (0x15, decide ((blobByte buf 0x15).toNat ≤ p.dmaBytes)),
    (0x18, decide (blob32 buf 0x18 ≠ disabled)),
    (0x3A, decide ((blobByte buf 0x3A).toNat < 8)),
    (0x3D, decide ((blobByte buf 0x3D).toNat ≤ 8)) ]

/-- The offset of the first field outside its valid set (60_exceptions.md R302). -/
def firstBadField (p : Params) (g : Geometry) (buf : List Byte) : Option Nat :=
  ((blobChecks p g buf).find? fun c => !c.2).map Prod.fst

/-- One region of the blob. -/
def blobRegion (r : Region) (g : Geometry) (off : Nat) (buf : List Byte) : Memory :=
  Memory.ofBytes r.fill ((buf.drop off).take (r.length g))

/-- The Backing Store of a blob: HI, VRAM, WRAM and SRAM are replaced, ROM and DISR are not stored (R281). -/
def blobArena (g : Geometry) (buf : List Byte) (m : Arena) : Arena where
  rom := m.rom
  disr := m.disr
  hi := blobRegion .hi g 0x40 buf
  vram := blobRegion .vram g 0x240 buf
  wram := blobRegion .wram g 0x4240 buf
  sram := blobRegion .sram g (0x4240 + Region.length g .wram) buf

/-- The fields decoded from a blob (R281), the rest of the state as it was. -/
def blobFields (buf : List Byte) (s : State) : State :=
  let flags := blobByte buf 0x04
  { s with
    cc := blob32 buf 0x00
    ds := flags.getLsbD 0
    frameDone := flags.getLsbD 3
    irq := { IF := (blobByte buf 0x05).extractLsb' 0 5, IE := blobByte buf 0x06, ime := flags.getLsbD 1,
             halted := flags.getLsbD 2, eiCycle := blob32 buf 0x08 }
    lyc := { lycReg := blobByte buf 0x07, lycEnable := flags.getLsbD 4 }
    banks := { rombank0 := blob16 buf 0x0C, rombank := blob16 buf 0x0E, rambank := blobByte buf 0x10,
               ramFlags := (blobByte buf 0x11).extractLsb' 0 3, vrambank := (blobByte buf 0x13).extractLsb' 0 1,
               wrambankSel := (blobByte buf 0x12).extractLsb' 0 3,
               oamDmaSrc := (DmaSrc.ofCode (blobByte buf 0x14).toNat).getD .off }
    dma := { dmaReg := blobByte buf 0x16, dmaPos := blobByte buf 0x15 }
    time := { blit := blob32 buf 0x18, serial := blob32 buf 0x1C, oamDma := blob32 buf 0x20,
              tima := blob32 buf 0x24, lyc := blob32 buf 0x28 }
    timer := { divBase := blob32 buf 0x2C, timaLast := blob32 buf 0x30,
               lastOvf := if flags.getLsbD 5 then some (blob32 buf 0x34) else none,
               tima := blobByte buf 0x38, tma := blobByte buf 0x39, tac := (blobByte buf 0x3A).extractLsb' 0 3 }
    serial := { sb := blobByte buf 0x3B, sc := blobByte buf 0x3C,
                serialBits := (blobByte buf 0x3D).extractLsb' 0 4 }
    arena := blobArena s.geo buf s.arena }

/-- The body of LOAD_STATE on a blob (R286). -/
def loadBody (s : State) : Except Abort State :=
  if hasLength s.inputs.buf (stateSize s.geo) = false then .ok (s.respond (.bit false))
  else match firstBadField s.params s.geo s.inputs.buf with
    | some off => .error (.raise .stateField (.offset off))
    | none =>
      let s := (blobFields s.inputs.buf s).derive
      .ok (State.respond (.bit true) (State.wakeRule { s with running := true }))

/-! ## The commands -/

/-- STATE_SIZE (R284). -/
def execStateSize (s : State) : Host.Outcome State Fault Refusal :=
  runCommand (encode .stateSize) .loaded (fun s => .ok (s.respond (.word (BitVec.ofNat 32 (stateSize s.geo))))) s

/-- SAVE_STATE (R285). -/
def execSaveState (s : State) : Host.Outcome State Fault Refusal :=
  runCommand (encode .saveState) .running
    (fun s => .ok { s with outputs := { s.outputs with rsp := .bit true, buf := some (saveBlob s) } }) s

/-- LOAD_STATE (R286). -/
def execLoadState (s : State) : Host.Outcome State Fault Refusal :=
  runCommand (encode .loadState) .loaded loadBody s

end Sys2Proof.Machine
end

