-- ==== Sys2Proof/Machine/Scheduler.lean ====
section
/-! DEFINITION. The scheduler's commands (42_scheduler.md): EVENT, NEXT_EVENT_TIME, MRESET, SET_DS, REBASE, LYC_CFG,
TAKE_FRAME. -/

namespace Sys2Proof.Machine

open Sys2Proof

/-- Dispatch the next unit if it is due at cycle `c`: at most one (R204). -/
def dispatchDue (c : Cycle) (s : State) : Except Abort State :=
  if minTime s.time ≤ c then dispatch (nextUnit s.time) (minTime s.time) s else .ok s

/-- The body of EVENT (R204). -/
def eventBody (c : Cycle) (s : State) : Except Abort State := do
  let s ← s.tick c
  let s ← dispatchDue c s
  return s.respond (.word (minTime s.time))

/-- EVENT (R204). -/
def execEvent (c : Cycle) (s : State) : Host.Outcome State Fault Refusal :=
  runCommand (encode (.event c)) .running (eventBody c) s

/-- NEXT_EVENT_TIME (R206). -/
def execNextEventTime (s : State) : Host.Outcome State Fault Refusal :=
  runCommand (encode .nextEventTime) .running (fun s => .ok (s.respond (.word (minTime s.time)))) s

/-- The registers of every unit at their machine-reset values (R212). -/
def mresetRegisters (s : State) : State :=
  { s with
    irq := { IF := s.params.init.IF, IE := s.params.init.IE, ime := false, halted := false, eiCycle := 0 }
    frameDone := false
    lyc := { lycReg := 0, lycEnable := false }
    timer := { divBase := 0, tima := s.params.init.TIMA, timaLast := 0, tma := s.params.init.TMA,
               tac := s.params.init.TAC, lastOvf := none }
    serial := { sb := s.params.init.SB, sc := s.params.init.SC, serialBits := 0 }
    dma := { s.dma with dmaPos := 0 } }

/-- The trigger times at machine reset (R212). -/
def mresetTimes (s : State) : Times where
  blit := blitSchedule s 0
  serial := disabled
  oamDma := disabled
  tima := timaSchedule s.params s.timer 0
  lyc := lycSchedule s 0

/-- The body of MRESET (R212). -/
def mresetBody (s : State) : Except Abort State := do
  let s ← State.checkLyView 0 { s with cc := 0, ds := false }
  let s := (mresetRegisters s).setDmaSrc .off
  return { s with time := mresetTimes s, running := true }

/-- MRESET (R212). -/
def execMreset (s : State) : Host.Outcome State Fault Refusal :=
  runCommand (encode .mreset) .loaded mresetBody s

/-- The body of SET_DS (R214). -/
def setDsBody (ds : Bool) (c : Cycle) (s : State) : Except Abort State := do
  let s ← s.tick c
  let s ← State.checkLyView c { s with ds := ds }
  return { s with time := { s.time with lyc := lycSchedule s c, blit := blitSchedule s c } }

/-- SET_DS (R214). -/
def execSetDs (ds : Bool) (c : Cycle) (s : State) : Host.Outcome State Fault Refusal :=
  runCommand (encode (.setDs ds c)) .running (setDsBody ds c) s

/-- A trigger time moved back by `d`; DISABLED stays (R216). -/
def rebaseTime (d : Cycle) (t : Cycle) : Cycle := if t = disabled then t else t - d

/-- The body of REBASE (R216). -/
def rebaseBody (d : Cycle) (s : State) : Except Abort State :=
  if s.cc < d ∨ minTime s.time < d then .error (.raise .contract (.delta d))
  else .ok { s with
    cc := s.cc - d
    time := { blit := rebaseTime d s.time.blit, serial := rebaseTime d s.time.serial,
              oamDma := rebaseTime d s.time.oamDma, tima := rebaseTime d s.time.tima,
              lyc := rebaseTime d s.time.lyc }
    timer := { s.timer with divBase := s.timer.divBase - d, timaLast := s.timer.timaLast - d,
                            lastOvf := s.timer.lastOvf.map (· - d) }
    irq := { s.irq with eiCycle := s.irq.eiCycle - d } }

/-- REBASE (R216). -/
def execRebase (d : Cycle) (s : State) : Host.Outcome State Fault Refusal :=
  runCommand (encode (.rebase d)) .running (rebaseBody d) s

/-- The body of LYC_CFG (R222). -/
def lycCfgBody (lyc : Byte) (en : Bool) (c : Cycle) (s : State) : Except Abort State := do
  let s ← s.tick c
  let s ← s.checkLyView c
  let s := { s with lyc := { lycReg := lyc, lycEnable := en } }
  return s.setTime .lyc (lycSchedule s c)

/-- LYC_CFG (R222). -/
def execLycCfg (lyc : Byte) (en : Bool) (c : Cycle) (s : State) : Host.Outcome State Fault Refusal :=
  runCommand (encode (.lycCfg lyc en c)) .running (lycCfgBody lyc en c) s

/-- TAKE_FRAME (R232). -/
def execTakeFrame (s : State) : Host.Outcome State Fault Refusal :=
  runCommand (encode .takeFrame) .running (fun s => .ok (State.respond (.bit s.frameDone) { s with frameDone := false })) s

end Sys2Proof.Machine
end

