-- ==== Sys2Proof/Machine/Dispatch.lean ====
section
/-! DEFINITION. One arm per command: each calls the meaning of its own. -/

namespace Sys2Proof.Machine

open Sys2Proof

def exec (i : Instr) (s : State) : Host.Outcome State Fault Refusal :=
  match i with
  | .reset rom ram wram cgb => Sys2Proof.Machine.execReset rom ram wram cgb s
  | .setRombank0 bank => Sys2Proof.Machine.execSetRombank0 bank s
  | .setRombank bank => Sys2Proof.Machine.execSetRombank bank s
  | .setRambank bank flags => Sys2Proof.Machine.execSetRambank bank flags s
  | .setWrambank bank => Sys2Proof.Machine.execSetWrambank bank s
  | .setVrambank bank => Sys2Proof.Machine.execSetVrambank bank s
  | .setOamDmaSrc src => Sys2Proof.Machine.execSetOamDmaSrc src s
  | .read a c => Sys2Proof.Machine.execRead a c s
  | .write a v c => Sys2Proof.Machine.execWrite a v c s
  | .ffRead p c => Sys2Proof.Machine.execFfRead p c s
  | .ffWrite p v c => Sys2Proof.Machine.execFfWrite p v c s
  | .event c => Sys2Proof.Machine.execEvent c s
  | .nextEventTime => Sys2Proof.Machine.execNextEventTime s
  | .mreset => Sys2Proof.Machine.execMreset s
  | .setDs ds c => Sys2Proof.Machine.execSetDs ds c s
  | .rebase d => Sys2Proof.Machine.execRebase d s
  | .lycCfg lyc en c => Sys2Proof.Machine.execLycCfg lyc en c s
  | .takeFrame => Sys2Proof.Machine.execTakeFrame s
  | .halt => Sys2Proof.Machine.execHalt s
  | .ei c => Sys2Proof.Machine.execEi c s
  | .di => Sys2Proof.Machine.execDi s
  | .ime => Sys2Proof.Machine.execIme s
  | .halted => Sys2Proof.Machine.execHalted s
  | .irqIn m c => Sys2Proof.Machine.execIrqIn m c s
  | .stateSize => Sys2Proof.Machine.execStateSize s
  | .saveState => Sys2Proof.Machine.execSaveState s
  | .loadState => Sys2Proof.Machine.execLoadState s

end Sys2Proof.Machine
end

