-- ==== Sys2Proof/Machine/Step.lean ====
section
/-! DEFINITION. One step: the first waiting command is taken, decoded and run (log 1). -/

namespace Sys2Proof.Machine

open Sys2Proof

/-- One step of the block: "commands arrive one at a time" (10_state.md R21). A packet that does not decode raises
F_ILLEGAL_CMD (60_exceptions.md R301, R303); with no command the block takes no step (00_scope.md R16, log 1). -/
def step (s : State) : Host.Outcome State Fault Refusal :=
  match s.takeCommand with
  | none => .refused .noCommand
  | some (p, t) =>
    match decode p with
    | .ok i => exec i t
    | .error _ => runIllegal p t

/-- The command whose bits are `w` arrives ahead of those that wait (log 1). A packet is always 64 bits. -/
def State.withFetchWord (s : State) (_nbits w : Nat) : State := s.pushCommand (tablePacket w)

end Sys2Proof.Machine
end

