-- ==== Sys2Proof/Machine/Pseudo.lean ====
section
/-! DEFINITION. The pseudo-commands of 30_encoding.md R110 that expand to commands of the block alone: LOAD_CART and
RUN_TO. SYNC_BANKS is what the cartridge collaborator derives from a CARTCTL output, outside the block. -/

namespace Sys2Proof.Machine

open Sys2Proof

/-- LOAD_CART: RESET, then MRESET (R110). -/
def loadCart (romBanks : BitVec 16) (ramBanks : BitVec 8) (wramBanks : BitVec 4) (isCgb : Bool) : List Instr :=
  [.reset romBanks ramBanks wramBanks isCgb, .mreset]

/-- RUN_TO: EVENT at `c`, again while the answer is at most `c`, at most `fuel` times (R110; the run loop of
70_reset_and_hazards.md R342). Every EVENT of one RUN_TO sees the port values of `s`, LCDP and CARTRD among them; the
rule names none, and 30_encoding.md R106 leaves each to be drawn. That they stand for the whole run is the model's choice
(DESIGN CHOICE, log 28); a run in which they change is one EVENT command after another, each with its own. -/
def runTo : Nat → Cycle → State → Host.Outcome State Fault Refusal
  | 0, _, s => .next s
  | fuel + 1, c, s =>
    match exec (.event c) s with
    | .next t =>
      match t.outputs.rsp with
      | .word w => if w ≤ c then runTo fuel c t else .next t
      | .none => .next t
      | .refused => .next t
      | .byte _ => .next t
      | .bit _ => .next t
    | .fault f => .fault f
    | .refused r => .refused r

end Sys2Proof.Machine
end

