-- ==== Sys2Proof/Safety.lean ====
section
/-! DEFINITION. What claims are stated in terms of: parameters that make sense, the invariants the spec states or
relies on, and the model's read of one byte. -/

namespace Sys2Proof.Machine

open Sys2Proof

/-- Parameters that fit the rules: 42_scheduler.md R211 requires `INIT.SC[7] = 0`; R200 places the rebase limit so
that no trigger time computed from a legal cycle wraps, which needs every offset a unit adds to be small; R205 needs
every period to be at least one cycle. The defaults of 00_scope.md R9 satisfy it. -/
def Params.legal (p : Params) : Bool :=
  decide (0 < p.rebaseLimit) && decide (p.rebaseLimit ≤ 0x80000000)
  && decide (0 < p.timaPeriod0) && decide (p.timaPeriod0 ≤ 0x10000)
  && decide (0 < p.timaPeriod1) && decide (p.timaPeriod1 ≤ 0x10000)
  && decide (0 < p.timaPeriod2) && decide (p.timaPeriod2 ≤ 0x10000)
  && decide (0 < p.timaPeriod3) && decide (p.timaPeriod3 ≤ 0x10000)
  && decide (0 < p.serialBitSlow) && decide (p.serialBitSlow ≤ 0x1000000)
  && decide (0 < p.serialBitFast) && decide (p.serialBitFast ≤ 0x1000000)
  && decide (0 < p.dmaByteCycles) && decide (p.dmaByteCycles ≤ 0x1000000)
  && decide (p.dmaStartDelay ≤ 0x1000000) && decide (p.dmaBytes < 256)
  && decide (0 < p.frameCycles) && decide (p.frameCycles ≤ 0x1000000)
  && decide (0 < p.lineCycles) && decide (p.lineCycles ≤ 0x1000) && decide (p.lastLine < 256)
  && decide (p.vblankLine ≤ p.lastLine) && decide (p.lyc0Offset ≤ p.lineCycles)
  && decide (p.frameCycles = p.lineCycles * p.frameLines) && decide (p.frameLines = p.lastLine + 1)
  && !p.init.SC.getLsbD 7

/-- The window table is the derivation of the bank registers and the DMA source, while it exists (10_state.md R26). -/
def TableDerived (s : State) : Prop := s.loaded = true → s.table = deriveTable s.params s.geo s.banks

/-- Every region's bytes are in canonical form (log 6). -/
def MemoryCanonical (s : State) : Prop :=
  ∀ r : Region, Memory.wf r.fill (r.length s.geo) (s.arena.get r) = true

/-- The geometry and the bank-index registers are legal while a cartridge is loaded (00_scope.md R8, 10_state.md R24). -/
def BanksLegal (s : State) : Prop :=
  s.loaded = true →
    2 ≤ s.geo.romBanks.toNat ∧ 2 ≤ s.geo.wramBanks.toNat ∧ s.geo.wramBanks.toNat ≤ 8 ∧
    s.banks.rombank0.toNat < s.geo.romBanks.toNat ∧ s.banks.rombank.toNat < s.geo.romBanks.toNat ∧
    (s.geo.ramBanks.toNat = 0 ∨ s.banks.rambank.toNat < s.geo.ramBanks.toNat) ∧
    s.banks.wramEff < s.geo.wramBanks.toNat

/-- The machine runs only with a cartridge loaded (10_state.md R39, R22). -/
def RunningLoaded (s : State) : Prop := s.running = true → s.loaded = true

/-- A halted CPU has no pending enabled request (43_irq_halt.md R267). -/
def HaltQuiet (s : State) : Prop := s.irq.halted = true → pend s.irq = 0

/-- The frame event is armed while the machine runs (10_state.md R30). -/
def BlitArmed (s : State) : Prop := s.running = true → s.time.blit ≠ disabled

/-- The counter stays below the rebase limit while the machine runs (42_scheduler.md R200, R281). -/
def CounterBelowLimit (s : State) : Prop := s.running = true → s.cc.toNat < s.params.rebaseLimit

/-- At most eight bits are left to shift (10_state.md R35). -/
def SerialBitsLegal (s : State) : Prop := s.serial.serialBits.toNat ≤ 8

/-- The DMA position is an index of the transfer or its end (10_state.md R36), and a byte is left while the unit is
armed. Every command keeps it but a LOAD_STATE of a blob that no SAVE_STATE wrote (log 13). -/
def DmaInRange (s : State) : Prop :=
  s.dma.dmaPos.toNat ≤ s.params.dmaBytes ∧ (s.time.oamDma ≠ disabled → s.dma.dmaPos.toNat < s.params.dmaBytes)

/-- Every byte of the disabled-RAM sentinel is 0xFF (10_state.md R23, 20_memory.md R86). -/
def SentinelConstant (s : State) : Prop := ∀ i, s.arena.byte .disr i = 0xFF

/-- The invariants together. -/
structure Inv (s : State) : Prop where
  table : TableDerived s
  memory : MemoryCanonical s
  banks : BanksLegal s
  running : RunningLoaded s
  halt : HaltQuiet s
  blit : BlitArmed s
  counter : CounterBelowLimit s
  serial : SerialBitsLegal s
  sentinel : SentinelConstant s

/-- The block accepts commands: no fault, a cartridge, and a machine reset behind it (10_state.md R37, R39). -/
def Ready (s : State) : Prop := s.faulted = none ∧ s.loaded = true ∧ s.running = true

/-- A cycle operand that `tick` accepts (42_scheduler.md R200). -/
def CycleOk (c : Cycle) (s : State) : Prop := s.cc ≤ c ∧ c.toNat < s.params.rebaseLimit

/-- The model's read of one byte of the Backing Store. -/
def State.byteAt (s : State) (r : Region) (i : Nat) : Byte := s.arena.byte r i

/-- Between `s` and `t` byte `i` of region `r` became `v`, and no other byte of the Backing Store changed. -/
def StoresOnly (s t : State) (r : Region) (i : Nat) (v : Byte) : Prop :=
  t.byteAt r i = v ∧ ∀ r' j, (r', j) ≠ (r, i) → t.byteAt r' j = s.byteAt r' j

/-- The fault register after `i` raised `id` with `info` (60_exceptions.md R300): nothing else changed, no output. -/
def Raised (i : Instr) (id : FaultId) (info : FaultInfo) (s t : State) : Prop :=
  t = { s with faulted := some { id := id, info := info, packet := encode i }, outputs := {} }

end Sys2Proof.Machine
end

