-- ==== Sys2Proof/Certificates/Slice0/Obligations.lean ====
section
/-! DEFINITION. The statements for the provers. Each is about the model's own `exec`, `step`, decoder and encoder, and
follows the numbered rules of the spec that its entry in OBLIGATIONS.json cites. -/

open Sys2Proof Sys2Proof.Machine

/-! ## Encoding -/

/-- The three packets of 30_encoding.md R111 decode to the commands the rule writes beside them, field by field. -/
def Obligations.ExamplePacketsDecode : Prop :=
  packFields 0x11#8 0xC000#16 0x12#8 200#32 = 0x11C00012000000C8#64 ∧
  decode 0x11C00012000000C8#64 = .ok (.write 0xC000#16 0x12#8 200#32) ∧
  decode 0x1040000000000064#64 = .ok (.read 0x4000#16 100#32) ∧
  decode 0x0100020000000002#64 = .ok (.reset 2#16 0#8 2#4 false)

/-- Decoding the packet of a well-formed command gives the command back, with every operand. -/
def Obligations.EncodeThenDecode : Prop :=
  ∀ i : Instr, i.wellFormed = true → decode (encode i) = .ok i

/-- A packet decodes to a command only if it is that command's packet, and a packet is illegal exactly when it is the
packet of no well-formed command: each word has at most one meaning (30_encoding.md R101, R105; 60_exceptions.md R303). -/
def Obligations.DecodeThenEncode : Prop :=
  (∀ (p : Packet) (i : Instr), decode p = .ok i → i.wellFormed = true ∧ encode i = p) ∧
  (∀ p : Packet, (∃ e, decode p = .error e) ↔ ∀ i : Instr, i.wellFormed = true → encode i ≠ p)

/-! ## Steps, faults and the checks of every command -/

/-- A step with no command waiting is refused; a step whose first command decodes to `i` is `exec` of `i` on the state
with that command taken and its port values presented; and a command placed by `withFetchWord` is what the next step
runs. -/
def Obligations.StepRunsDecodedCommand : Prop :=
  (∀ s : State, s.commands = [] → step s = .refused .noCommand) ∧
  (∀ (s : State) (k : Command) (rest : List Command) (i : Instr),
    s.commands = k :: rest → decode k.packet = .ok i →
      step s = exec i { s with commands := rest, inputs := k.inputs }) ∧
  (∀ (s : State) (i : Instr), i.wellFormed = true →
      step (s.withFetchWord 64 (encode i).toNat) = exec i s)

/-- A packet that does not decode raises F_ILLEGAL_CMD, records the packet and does nothing else; a packet whose OP is
in no row of the opcode map, or whose format has a reserved bit set, is one that does not decode. -/
def Obligations.IllegalPacketRaises : Prop :=
  (∀ (s : State) (k : Command) (rest : List Command) (e : DecodeError),
    s.commands = k :: rest → s.faulted = none → decode k.packet = .error e →
      step s = .next { s with
        commands := rest, inputs := k.inputs
        faulted := some { id := .illegalCmd, info := .packet k.packet, packet := k.packet }
        outputs := {} }) ∧
  (∀ p : Packet, opField p ∉ [0x01#8, 0x02#8, 0x03#8, 0x04#8, 0x05#8, 0x06#8, 0x07#8, 0x10#8, 0x11#8, 0x12#8, 0x13#8,
      0x20#8, 0x21#8, 0x22#8, 0x23#8, 0x24#8, 0x25#8, 0x26#8, 0x30#8, 0x31#8, 0x32#8, 0x33#8, 0x34#8, 0x35#8, 0x40#8,
      0x41#8, 0x42#8] → decode p = .error .unknownOpcode) ∧
  (∀ p : Packet, opField p ∈ [0x21#8, 0x22#8, 0x26#8, 0x30#8, 0x32#8, 0x33#8, 0x34#8, 0x40#8, 0x41#8, 0x42#8] →
      (aField p ≠ 0 ∨ bField p ≠ 0 ∨ cField p ≠ 0) → decode p = .error .reservedBit) ∧
  (∀ p : Packet, opField p = 0x07#8 → aField p = 0 → cField p = 0 → (bField p = 6 ∨ bField p = 7) →
      decode p = .error .badSourceCode)

/-- The whole discipline of faults, for every step. After a fault every command, legal or not, is refused and changes
nothing but the stream and the response, so that no command clears a fault; and a step that raises one records the
fault with the packet that raised it and leaves every other field as it was when the command began. -/
def Obligations.FaultDiscipline : Prop :=
  (∀ (s : State) (k : Command) (rest : List Command), s.commands = k :: rest → s.faulted ≠ none →
      step s = .next { s with commands := rest, inputs := k.inputs, outputs := { rsp := .refused } }) ∧
  (∀ s t : State, s.faulted = none → step s = .next t → t.faulted ≠ none →
      ∃ (k : Command) (rest : List Command) (id : FaultId) (info : FaultInfo), s.commands = k :: rest ∧
        t = { s with commands := rest, inputs := k.inputs
                     faulted := some { id := id, info := info, packet := k.packet }, outputs := {} })

/-- The lifecycle checks: with no cartridge every command but RESET raises F_NO_CART, and before a machine reset so does
every command of the list of 10_state.md R39. -/
def Obligations.LifecycleChecks : Prop :=
  (∀ (i : Instr) (s : State), i.wellFormed = true → s.faulted = none → s.loaded = false →
      (∀ rom ram wram cgb, i ≠ .reset rom ram wram cgb) →
      ∃ t, exec i s = .next t ∧ Raised i .noCart .none s t) ∧
  (∀ (s : State) (a : Addr) (v p : Byte) (c : Cycle) (b : Bool) (m : BitVec 5) (i : Instr),
      s.faulted = none → s.loaded = true → s.running = false →
      i ∈ [.read a c, .write a v c, .ffRead p c, .ffWrite p v c, .event c, .nextEventTime, .setDs b c, .rebase c,
           .lycCfg v b c, .takeFrame, .halt, .ei c, .di, .ime, .halted, .irqIn m c, .saveState] →
      ∃ t, exec i s = .next t ∧ Raised i .noCart .none s t)

/-- Cycle monotonicity: a cycle operand behind the counter, or at or above the rebase limit, raises F_CONTRACT with
that cycle; and a command with a cycle operand that does not fault had a legal one and recorded it. -/
def Obligations.CycleOperandChecked : Prop :=
  (∀ (i : Instr) (c : Cycle) (s : State), cycleOperand i = some c → Ready s → ¬CycleOk c s →
      ∃ t, exec i s = .next t ∧ Raised i .contract (.cycle c) s t) ∧
  (∀ (i : Instr) (c : Cycle) (s t : State), cycleOperand i = some c → exec i s = .next t → t.faulted = none →
      CycleOk c s ∧ t.cc = c)

/-! ## Invariants -/

/-- What the spec says of power-on: no cartridge, not running, no fault, and no window table. And the invariants hold
there: that last clause rests on the model's own power-on values as well (halted, the serial bits, the DMA position and
the listed memory are those log 7 names, in the form of log 6), which the spec leaves open. -/
def Obligations.PowerOnState : Prop :=
  State.reset.loaded = false ∧ State.reset.running = false ∧ State.reset.faulted = none ∧
  State.reset.table = { rmem := [], wmem := [] } ∧ Inv State.reset

/-- Every step keeps the invariants of the block together, and keeps its parameters. -/
def Obligations.InvariantsKept : Prop :=
  ∀ s t : State, Params.legal s.params = true → Inv s → step s = .next t → Inv t ∧ t.params = s.params

/-- No step of a state that meets the invariants ends in a stop of the model: the bound check on every dereference of
the Backing Store never fires (20_memory.md R77), whatever the command and its operands. -/
def Obligations.NoStepStops : Prop :=
  ∀ s : State, Inv s → s.commands ≠ [] → ∃ t, step s = .next t

/-- The window table is the derivation of the bank registers after every step, whatever the command
(10_state.md R26, 20_memory.md R83, R84). -/
def Obligations.TableStaysDerived : Prop :=
  ∀ s t : State, TableDerived s → step s = .next t → TableDerived t

/-- After every command a halted CPU has no pending enabled request (43_irq_halt.md R267), and so it is at power-on. The
power-on clause rests on the model's own values for halted, IF and IE there (log 7), which the spec leaves open. -/
def Obligations.HaltGateQuiet : Prop :=
  HaltQuiet State.reset ∧ ∀ s t : State, HaltQuiet s → step s = .next t → HaltQuiet t

/-- Every window of the derived table stays inside its region, for every address of its nibble. -/
def Obligations.WindowsInBounds : Prop :=
  ∀ (s : State) (a : Addr) (r : Region) (bias : Int), s.loaded = true → BanksLegal s →
    (s.derive.readEntry a = .win r bias ∨ s.derive.writeEntry a = .win r bias) →
      0 ≤ bias + a.toNat ∧ bias + a.toNat < (r.length s.geo : Int)

/-- The base derivation with no DMA: each nibble's entry, both directions. -/
def Obligations.BaseWindows : Prop :=
  ∀ (s : State) (a : Addr), s.banks.oamDmaSrc = .off →
    (a.toNat < 0x4000 → s.derive.readEntry a = .win .rom (s.banks.rombank0.toNat * 0x4000)) ∧
    (0x4000 ≤ a.toNat → a.toNat < 0x8000 → s.derive.readEntry a = .win .rom (s.banks.rombank.toNat * 0x4000 - 0x4000)) ∧
    (a.toNat < 0xA000 → s.derive.writeEntry a = .slow) ∧
    (0x8000 ≤ a.toNat → a.toNat < 0xA000 → s.derive.readEntry a = .slow) ∧
    (0xA000 ≤ a.toNat → a.toNat < 0xC000 →
      s.derive.readEntry a =
        (if s.banks.ramFlags.getLsbD 2 then (if s.banks.ramFlags.getLsbD 0 then .slow else .win .disr (-0xA000))
         else if s.geo.ramBanks = 0 ∨ s.banks.ramFlags.getLsbD 0 = false then .win .disr (-0xA000)
         else .win .sram (s.banks.rambank.toNat * 0x2000 - 0xA000)) ∧
      s.derive.writeEntry a =
        (if s.banks.ramFlags.getLsbD 2 then (if s.banks.ramFlags.getLsbD 1 then .slow else .discard)
         else if s.geo.ramBanks = 0 ∨ s.banks.ramFlags.getLsbD 1 = false then .discard
         else .win .sram (s.banks.rambank.toNat * 0x2000 - 0xA000))) ∧
    (0xC000 ≤ a.toNat → a.toNat < 0xD000 →
      s.derive.readEntry a = .win .wram (-0xC000) ∧ s.derive.writeEntry a = .win .wram (-0xC000)) ∧
    (0xD000 ≤ a.toNat → a.toNat < 0xE000 →
      s.derive.readEntry a = .win .wram (max s.banks.wrambankSel.toNat 1 * 0x1000 - 0xD000) ∧
      s.derive.writeEntry a = .win .wram (max s.banks.wrambankSel.toNat 1 * 0x1000 - 0xD000)) ∧
    (0xE000 ≤ a.toNat → a.toNat < 0xF000 →
      s.derive.readEntry a = .win .wram (-0xE000) ∧ s.derive.writeEntry a = .win .wram (-0xE000)) ∧
    (0xF000 ≤ a.toNat → s.derive.readEntry a = .slow ∧ s.derive.writeEntry a = .slow)

/-- OAM DMA contention: which sources block which bus group, in each mode; a blocked group is slow (reads of ROMBUS,
both directions of SRAMBUS and WRAMBUS), and every other entry is the one with no DMA. -/
def Obligations.ContentionWindows : Prop :=
  ∀ (s : State) (a : Addr),
    let src := s.banks.oamDmaSrc
    let off := { s with banks := { s.banks with oamDmaSrc := .off } }
    let GR := if s.geo.isCgb then (if s.params.cgbExtBus then [DmaSrc.rom, .sram, .invalid] else [.rom, .invalid])
              else [.rom, .sram, .wram, .invalid]
    let GS := if s.geo.isCgb then (if s.params.cgbExtBus then [DmaSrc.rom, .sram, .invalid] else [.sram, .invalid])
              else [.rom, .sram, .wram, .invalid]
    let GW := if s.geo.isCgb then [DmaSrc.wram, .invalid] else [.rom, .sram, .wram, .invalid]
    (a.toNat < 0x8000 → s.derive.readEntry a = if src ∈ GR then .slow else off.derive.readEntry a) ∧
    (a.toNat < 0xA000 → s.derive.writeEntry a = off.derive.writeEntry a) ∧
    (0x8000 ≤ a.toNat → a.toNat < 0xA000 → s.derive.readEntry a = off.derive.readEntry a) ∧
    (0xA000 ≤ a.toNat → a.toNat < 0xC000 →
      s.derive.readEntry a = (if src ∈ GS then .slow else off.derive.readEntry a) ∧
      s.derive.writeEntry a = (if src ∈ GS then .slow else off.derive.writeEntry a)) ∧
    (0xC000 ≤ a.toNat → a.toNat < 0xF000 →
      s.derive.readEntry a = (if src ∈ GW then .slow else off.derive.readEntry a) ∧
      s.derive.writeEntry a = (if src ∈ GW then .slow else off.derive.writeEntry a)) ∧
    (0xF000 ≤ a.toNat →
      s.derive.readEntry a = off.derive.readEntry a ∧ s.derive.writeEntry a = off.derive.writeEntry a)

/-! ## Bus reads -/

/-- READ completes at every address, answers a byte, records its cycle, and changes nothing else but the count of free
values used: no register, no flag and no byte of the Backing Store. -/
def Obligations.ReadCompletes : Prop :=
  ∀ (s : State) (a : Addr) (c : Cycle), Ready s → CycleOk c s → Inv s →
    ∃ (t : State) (v : Byte), exec (.read a c) s = .next t ∧
      t = { s with cc := c, draws := t.draws, outputs := { rsp := .byte v } } ∧
      (t.draws = s.draws ∨ t.draws = s.draws + 1)

/-- READ through an uncontended window answers the byte of the bank the window maps: ROM bank 0 window, switchable ROM
window, working RAM, its switchable bank and the echo of bank 0; and of cartridge RAM, 0xFF while it is disabled or
absent, its byte while it is enabled for reading, and the port's byte while the real-time clock is selected. -/
def Obligations.ReadThroughWindow : Prop :=
  ∀ (s : State) (a : Addr) (c : Cycle), Ready s → CycleOk c s → Inv s →
    let answers (v : Byte) := exec (.read a c) s = .next { s with cc := c, outputs := { rsp := .byte v } }
    (a.toNat < 0x4000 → s.romBlocked = false →
      answers (s.byteAt .rom (s.banks.rombank0.toNat * 0x4000 + a.toNat))) ∧
    (0x4000 ≤ a.toNat → a.toNat < 0x8000 → s.romBlocked = false →
      answers (s.byteAt .rom (s.banks.rombank.toNat * 0x4000 + (a.toNat - 0x4000)))) ∧
    (0xC000 ≤ a.toNat → a.toNat < 0xD000 → s.wramBlocked = false → answers (s.byteAt .wram (a.toNat - 0xC000))) ∧
    (0xD000 ≤ a.toNat → a.toNat < 0xE000 → s.wramBlocked = false →
      answers (s.byteAt .wram (max s.banks.wrambankSel.toNat 1 * 0x1000 + (a.toNat - 0xD000)))) ∧
    (0xE000 ≤ a.toNat → a.toNat < 0xF000 → s.wramBlocked = false → answers (s.byteAt .wram (a.toNat - 0xE000))) ∧
    (0xA000 ≤ a.toNat → a.toNat < 0xC000 → s.sramBlocked = false → answers
      (if s.banks.ramFlags.getLsbD 0 = false then 0xFF
       else if s.banks.ramFlags.getLsbD 2 then s.inputs.cartRd
       else if s.geo.ramBanks = 0 then 0xFF
       else s.byteAt .sram (s.banks.rambank.toNat * 0x2000 + (a.toNat - 0xA000))))

/-- READ on the slow path: VRAM, the echo of the switchable bank, OAM and the unusable range, each with its gate, and
every contended read, which answers a free byte (of which nothing is said). -/
def Obligations.ReadSlowPath : Prop :=
  ∀ (s : State) (a : Addr) (c : Cycle), Ready s → CycleOk c s → Inv s →
    let answers (v : Byte) := exec (.read a c) s = .next { s with cc := c, outputs := { rsp := .byte v } }
    let free := exec (.read a c) s = .next { s with
      cc := c, draws := s.draws + 1, outputs := { rsp := .byte (Config.freeByte s.draws) } }
    (a.toNat < 0x8000 → s.romBlocked = true → free) ∧
    (0x8000 ≤ a.toNat → a.toNat < 0xA000 → s.banks.oamDmaSrc = .vram → free) ∧
    (0x8000 ≤ a.toNat → a.toNat < 0xA000 → s.banks.oamDmaSrc ≠ .vram → s.inputs.vramOk = true →
      answers (s.byteAt .vram (s.banks.vrambank.toNat * 0x2000 + (a.toNat - 0x8000)))) ∧
    (0x8000 ≤ a.toNat → a.toNat < 0xA000 → s.banks.oamDmaSrc ≠ .vram → s.inputs.vramOk = false → answers 0xFF) ∧
    (0xA000 ≤ a.toNat → a.toNat < 0xC000 → s.sramBlocked = true → free) ∧
    (0xC000 ≤ a.toNat → a.toNat < 0xFE00 → s.wramBlocked = true → free) ∧
    (0xF000 ≤ a.toNat → a.toNat < 0xFE00 → s.wramBlocked = false →
      answers (s.byteAt .wram (max s.banks.wrambankSel.toNat 1 * 0x1000 + (a.toNat - 0xF000)))) ∧
    (0xFE00 ≤ a.toNat → a.toNat < 0xFEA0 → s.banks.oamDmaSrc ≠ .off → free) ∧
    (0xFE00 ≤ a.toNat → a.toNat < 0xFEA0 → s.banks.oamDmaSrc = .off → s.inputs.oamOk = true →
      answers (s.byteAt .hi (a.toNat - 0xFE00))) ∧
    (0xFE00 ≤ a.toNat → a.toNat < 0xFEA0 → s.banks.oamDmaSrc = .off → s.inputs.oamOk = false → answers 0xFF) ∧
    (0xFEA0 ≤ a.toNat → a.toNat < 0xFF00 → answers 0xFF)

/-- FF_READ of every register: the registers that answer whole, the registers whose unused bits are free, HRAM, and the
delegated registers, whose byte is the port's; and READ of 0xFF00 + p is FF_READ of p. TIMA has its own statement. The
rule of DIV gives the divider's bits 15:8, for a P_DIV_SHIFT of 8 (41_bus_access.md R184); that another shift answers the
low byte of the shifted divider is the model's reading (log 23). -/
def Obligations.IoReads : Prop :=
  ∀ (s : State) (c : Cycle) (p : Byte), Ready s → CycleOk c s → Inv s →
    let answers (p : Byte) (v : Byte) :=
      exec (.ffRead p c) s = .next { s with cc := c, outputs := { rsp := .byte v } }
    let partly (p mask : Byte) (v : Byte) := exec (.ffRead p c) s = .next { s with
      cc := c, draws := s.draws + 1
      outputs := { rsp := .byte ((v &&& mask) ||| (Config.freeByte s.draws &&& ~~~mask)) } }
    answers 0x01 s.serial.sb ∧
    partly 0x02 0x83 s.serial.sc ∧
    answers 0x04 (BitVec.ofNat 8 (((c - s.timer.divBase).toNat % 2 ^ 16) / 2 ^ s.params.divShift)) ∧
    answers 0x06 s.timer.tma ∧
    partly 0x07 0x07 (s.timer.tac.setWidth 8) ∧
    partly 0x0F 0x1F (s.irq.IF.setWidth 8) ∧
    answers 0x46 s.dma.dmaReg ∧
    (s.geo.isCgb = true → partly 0x4F 0x01 (s.banks.vrambank.setWidth 8)) ∧
    (s.geo.isCgb = true → partly 0x70 0x07 (s.banks.wrambankSel.setWidth 8)) ∧
    answers 0xFF s.irq.IE ∧
    (0x80 ≤ p.toNat → p ≠ 0xFF → answers p (s.byteAt .hi (0x100 + p.toNat))) ∧
    (p.toNat < 0x80 → p ∉ [0x01, 0x02, 0x04, 0x05, 0x06, 0x07, 0x0F, 0x46] →
      (p ∈ [0x4F, 0x70] → s.geo.isCgb = false) → answers p s.inputs.extRd) ∧
    exec (.read (0xFF00#16 + p.setWidth 16) c) s = exec (.ffRead p c) s

/-- The TIMA read value: the stored value while TIMA is stopped; a free byte while an overflow is due and not yet
dispatched, or in the reload window after one; else the stored value plus the increments since, modulo 256. -/
def Obligations.TimaRead : Prop :=
  ∀ (s : State) (c : Cycle), Ready s → CycleOk c s →
    let answers (v : Byte) := exec (.ffRead 0x05 c) s = .next { s with cc := c, outputs := { rsp := .byte v } }
    let free := exec (.ffRead 0x05 c) s = .next { s with
      cc := c, draws := s.draws + 1, outputs := { rsp := .byte (Config.freeByte s.draws) } }
    let due := s.time.tima ≠ disabled ∧ s.time.tima ≤ c
    let reload := ∃ o, s.timer.lastOvf = some o ∧ (c - o).toNat < s.params.timaReloadWindow
    let period := [s.params.timaPeriod0, s.params.timaPeriod1, s.params.timaPeriod2, s.params.timaPeriod3].getD
      (s.timer.tac.toNat % 4) 0
    (s.timer.tac.getLsbD 2 = false → answers s.timer.tima) ∧
    (s.timer.tac.getLsbD 2 = true → (due ∨ reload) → free) ∧
    (s.timer.tac.getLsbD 2 = true → ¬due → ¬reload → answers (BitVec.ofInt 8 ((s.timer.tima.toNat : Int)
      + ((c - s.timer.divBase).toNat / period : Nat) - ((s.timer.timaLast - s.timer.divBase).toNat / period : Nat))))

/-! ## Bus writes -/

/-- WRITE completes at every address and for every byte, records its cycle, answers nothing and raises nothing; the one
exception is a write of SVBK in CGB mode that selects a bank the cartridge has not, which raises F_BANK with the bank
value and does nothing else (41_bus_access.md R191). -/
def Obligations.WriteCompletes : Prop :=
  ∀ (s : State) (a : Addr) (v : Byte) (c : Cycle), Ready s → CycleOk c s → Inv s →
    let absent := s.geo.isCgb = true ∧ a = 0xFF70 ∧ s.geo.wramBanks.toNat ≤ max (v.toNat % 8) 1
    (¬absent → ∃ t, exec (.write a v c) s = .next t ∧ t.cc = c ∧ t.faulted = none ∧ t.outputs.rsp = .none ∧
      t.geo = s.geo ∧ t.params = s.params ∧ t.loaded = true ∧ t.running = true ∧
      (∀ i, t.byteAt .rom i = s.byteAt .rom i) ∧ (∀ i, t.byteAt .disr i = s.byteAt .disr i)) ∧
    (absent → ∃ t, exec (.write a v c) s = .next t ∧
      Raised (.write a v c) .bank (.bank ((v.extractLsb' 0 3).setWidth 16)) s t)

/-- WRITE where it stores: the working-RAM windows, the echo of the switchable bank, enabled cartridge RAM, VRAM, OAM
and HRAM. The byte stored to is computed, every other byte of the Backing Store reads as before, and no register
changes. -/
def Obligations.WriteStores : Prop :=
  ∀ (s : State) (a : Addr) (v : Byte) (c : Cycle), Ready s → CycleOk c s → Inv s →
    let stores (r : Region) (i : Nat) := ∃ t, exec (.write a v c) s = .next t ∧
      t = { s with cc := c, arena := t.arena, outputs := {} } ∧ StoresOnly s t r i v
    (0xC000 ≤ a.toNat → a.toNat < 0xD000 → s.wramBlocked = false → stores .wram (a.toNat - 0xC000)) ∧
    (0xD000 ≤ a.toNat → a.toNat < 0xE000 → s.wramBlocked = false →
      stores .wram (max s.banks.wrambankSel.toNat 1 * 0x1000 + (a.toNat - 0xD000))) ∧
    (0xE000 ≤ a.toNat → a.toNat < 0xF000 → s.wramBlocked = false → stores .wram (a.toNat - 0xE000)) ∧
    (0xF000 ≤ a.toNat → a.toNat < 0xFE00 → s.wramBlocked = false →
      stores .wram (max s.banks.wrambankSel.toNat 1 * 0x1000 + (a.toNat - 0xF000))) ∧
    (0xA000 ≤ a.toNat → a.toNat < 0xC000 → s.sramBlocked = false → s.banks.ramFlags.getLsbD 2 = false →
      s.banks.ramFlags.getLsbD 1 = true → s.geo.ramBanks ≠ 0 →
      stores .sram (s.banks.rambank.toNat * 0x2000 + (a.toNat - 0xA000))) ∧
    (0x8000 ≤ a.toNat → a.toNat < 0xA000 → s.banks.oamDmaSrc ≠ .vram → s.inputs.vramOk = true →
      stores .vram (s.banks.vrambank.toNat * 0x2000 + (a.toNat - 0x8000))) ∧
    (0xFE00 ≤ a.toNat → a.toNat < 0xFEA0 → s.banks.oamDmaSrc = .off → s.inputs.oamOk = true →
      stores .hi (a.toNat - 0xFE00)) ∧
    (0xFF80 ≤ a.toNat → a.toNat < 0xFFFF → stores .hi (0x100 + (a.toNat - 0xFF00)))

/-- WRITE where it stores nothing: the cartridge control range and the selected real-time clock only emit CARTCTL;
disabled or absent cartridge RAM, denied VRAM and OAM, and the unusable range drop the byte. No register and no byte of
the Backing Store changes. -/
def Obligations.WriteStoresNothing : Prop :=
  ∀ (s : State) (a : Addr) (v : Byte) (c : Cycle), Ready s → CycleOk c s → Inv s →
    let emits := exec (.write a v c) s = .next { s with cc := c, outputs := { cartCtl := some ⟨a, v, c⟩ } }
    let drops := exec (.write a v c) s = .next { s with cc := c, outputs := {} }
    (a.toNat < 0x8000 → emits) ∧
    (0xA000 ≤ a.toNat → a.toNat < 0xC000 → s.sramBlocked = false → s.banks.ramFlags.getLsbD 2 = true →
      s.banks.ramFlags.getLsbD 1 = true → emits) ∧
    (0xA000 ≤ a.toNat → a.toNat < 0xC000 → s.sramBlocked = false → s.banks.ramFlags.getLsbD 1 = false → drops) ∧
    (0xA000 ≤ a.toNat → a.toNat < 0xC000 → s.sramBlocked = false → s.banks.ramFlags.getLsbD 2 = false →
      s.geo.ramBanks = 0 → drops) ∧
    (0x8000 ≤ a.toNat → a.toNat < 0xA000 → s.banks.oamDmaSrc ≠ .vram → s.inputs.vramOk = false → drops) ∧
    (0xFE00 ≤ a.toNat → a.toNat < 0xFEA0 → s.banks.oamDmaSrc = .off → s.inputs.oamOk = false → drops) ∧
    (0xFEA0 ≤ a.toNat → a.toNat < 0xFF00 → drops)

/-- A contended WRITE uses one free bit and, as it says, stores the byte its address names and no other, or changes
nothing; nothing is said of which. VRAM as the source, working RAM and the echo, OAM, and cartridge RAM in its three
settings. VRAM and OAM are as the rules have them whatever the LCD says: the DMA source is tested before the LCD's
permission. Three clauses rest on the model's reading (log 15): that a write that does not land leaves memory as it was,
that the VRAM-source store does not look at the LCD's permission, and what a contended write to the clock puts out. -/
def Obligations.ContendedWrites : Prop :=
  ∀ (s : State) (a : Addr) (v : Byte) (c : Cycle), Ready s → CycleOk c s → Inv s →
    let maybe (r : Region) (i : Nat) := ∃ t, exec (.write a v c) s = .next t ∧
      t = { s with cc := c, draws := s.draws + 1, arena := t.arena, outputs := {} } ∧
      (if Config.freeBool s.draws then StoresOnly s t r i v else t.arena = s.arena)
    (0x8000 ≤ a.toNat → a.toNat < 0xA000 → s.banks.oamDmaSrc = .vram →
      maybe .vram (s.banks.vrambank.toNat * 0x2000 + (a.toNat - 0x8000))) ∧
    (0xC000 ≤ a.toNat → a.toNat < 0xD000 → s.wramBlocked = true → maybe .wram (a.toNat - 0xC000)) ∧
    (0xD000 ≤ a.toNat → a.toNat < 0xE000 → s.wramBlocked = true →
      maybe .wram (max s.banks.wrambankSel.toNat 1 * 0x1000 + (a.toNat - 0xD000))) ∧
    (0xE000 ≤ a.toNat → a.toNat < 0xF000 → s.wramBlocked = true → maybe .wram (a.toNat - 0xE000)) ∧
    (0xF000 ≤ a.toNat → a.toNat < 0xFE00 → s.wramBlocked = true →
      maybe .wram (max s.banks.wrambankSel.toNat 1 * 0x1000 + (a.toNat - 0xF000))) ∧
    (0xFE00 ≤ a.toNat → a.toNat < 0xFEA0 → s.banks.oamDmaSrc ≠ .off → maybe .hi (a.toNat - 0xFE00)) ∧
    (0xA000 ≤ a.toNat → a.toNat < 0xC000 → s.sramBlocked = true → s.banks.ramFlags.getLsbD 1 = true →
      s.banks.ramFlags.getLsbD 2 = false → s.geo.ramBanks ≠ 0 →
      maybe .sram (s.banks.rambank.toNat * 0x2000 + (a.toNat - 0xA000))) ∧
    (0xA000 ≤ a.toNat → a.toNat < 0xC000 → s.sramBlocked = true →
      (s.banks.ramFlags.getLsbD 1 = false ∨ (s.banks.ramFlags.getLsbD 2 = false ∧ s.geo.ramBanks = 0)) →
      exec (.write a v c) s = .next { s with cc := c, draws := s.draws + 1, outputs := {} }) ∧
    (0xA000 ≤ a.toNat → a.toNat < 0xC000 → s.sramBlocked = true → s.banks.ramFlags.getLsbD 1 = true →
      s.banks.ramFlags.getLsbD 2 = true →
      exec (.write a v c) s = .next { s with cc := c, draws := s.draws + 1, outputs :=
        { cartCtl := if Config.freeBool s.draws then some ⟨a, v, c⟩ else none } })

/-- A byte written is the byte read: with no DMA active, a WRITE to plain storage and a READ of the same address at a
later cycle with the same port values answers it; and the echoes see it, 0xE000 above 0xC000 and 0xF000 above 0xD000. -/
def Obligations.ReadAfterWrite : Prop :=
  ∀ (s t : State) (a b : Addr) (v : Byte) (c c' : Cycle), Ready s → CycleOk c s → Inv s →
    s.banks.oamDmaSrc = .off → exec (.write a v c) s = .next t → CycleOk c' t →
    ((0xC000 ≤ a.toNat ∧ a.toNat < 0xFE00 ∧ b = a) ∨
     (0xC000 ≤ a.toNat ∧ a.toNat < 0xDE00 ∧ b.toNat = a.toNat + 0x2000) ∨
     (0xE000 ≤ a.toNat ∧ a.toNat < 0xFE00 ∧ b.toNat + 0x2000 = a.toNat) ∨
     (0xFF80 ≤ a.toNat ∧ a.toNat < 0xFFFF ∧ b = a) ∨
     (0x8000 ≤ a.toNat ∧ a.toNat < 0xA000 ∧ s.inputs.vramOk = true ∧ b = a) ∨
     (0xFE00 ≤ a.toNat ∧ a.toNat < 0xFEA0 ∧ s.inputs.oamOk = true ∧ b = a) ∨
     (0xA000 ≤ a.toNat ∧ a.toNat < 0xC000 ∧ s.banks.ramFlags = 3 ∧ s.geo.ramBanks ≠ 0 ∧ b = a)) →
    ∃ u, exec (.read b c') t = .next u ∧ u.outputs.rsp = .byte v

/-- HRAM is plain storage that no OAM DMA contends: whatever the DMA source, a byte written there is read back, by READ
and by FF_READ, and no other byte and no register changes. -/
def Obligations.HramNeverContended : Prop :=
  ∀ (s : State) (p v : Byte) (c : Cycle), Ready s → CycleOk c s → Inv s → 0x80 ≤ p.toNat → p ≠ 0xFF →
    ∃ t, exec (.ffWrite p v c) s = .next t ∧ t = { s with cc := c, arena := t.arena, outputs := {} } ∧
      StoresOnly s t .hi (0x100 + p.toNat) v ∧
      exec (.write (0xFF00#16 + p.setWidth 16) v c) s = .next t ∧
      exec (.ffRead p c) t = .next { t with outputs := { rsp := .byte v } } ∧
      exec (.read (0xFF00#16 + p.setWidth 16) c) t = .next { t with outputs := { rsp := .byte v } }

/-! ## I/O register writes -/

/-- FF_WRITE of every register but the timer's and HRAM: SB, SC, IF, IE, DMA, VBK and SVBK in CGB mode, and the
delegated registers, which only emit EXTWR; each with everything it leaves unchanged. WRITE of 0xFF00 + p that does not
fault is FF_WRITE of p. That no such write stores into HI is the model's reading (log 27). -/
def Obligations.IoWrites : Prop :=
  ∀ (s : State) (p v : Byte) (c : Cycle), Ready s → CycleOk c s → Inv s →
    let becomes (p : Byte) (t : State) := exec (.ffWrite p v c) s = .next { t with cc := c, outputs := {} }
    let quiet (r : BitVec 5) (e : BitVec 8) : Bool := (r &&& e.extractLsb' 0 5) == 0
    let bit := if s.geo.isCgb && v.getLsbD 1 then s.params.serialBitFast else s.params.serialBitSlow
    becomes 0x01 { s with serial := { s.serial with sb := v } } ∧
    (v.getLsbD 7 = true → v.getLsbD 0 = true → becomes 0x02 { s with
      serial := { s.serial with sc := v, serialBits := 8 }
      time := { s.time with serial := c + BitVec.ofNat 32 bit } }) ∧
    ((v.getLsbD 7 = false ∨ v.getLsbD 0 = false) → becomes 0x02 { s with
      serial := { s.serial with sc := v, serialBits := 0 }, time := { s.time with serial := 0xFFFFFFFF } }) ∧
    becomes 0x0F { s with irq := { s.irq with
      IF := v.extractLsb' 0 5, halted := s.irq.halted && quiet (v.extractLsb' 0 5) s.irq.IE } } ∧
    becomes 0xFF { s with irq := { s.irq with IE := v, halted := s.irq.halted && quiet s.irq.IF v } } ∧
    becomes 0x46 { s with
      dma := { dmaReg := v, dmaPos := 0 }
      time := { s.time with oamDma := c + BitVec.ofNat 32 s.params.dmaStartDelay } } ∧
    (s.geo.isCgb = true → becomes 0x4F { s with banks := { s.banks with vrambank := v.extractLsb' 0 1 } }) ∧
    (s.geo.isCgb = true → max (v.toNat % 8) 1 < s.geo.wramBanks.toNat →
      let b := { s.banks with wrambankSel := v.extractLsb' 0 3 }
      becomes 0x70 { s with banks := b, table := deriveTable s.params s.geo b }) ∧
    (s.geo.isCgb = true → s.geo.wramBanks.toNat ≤ max (v.toNat % 8) 1 →
      ∃ t, exec (.ffWrite 0x70 v c) s = .next t ∧
        Raised (.ffWrite 0x70 v c) .bank (.bank ((v.extractLsb' 0 3).setWidth 16)) s t) ∧
    (p.toNat < 0x80 → p ∉ [0x01, 0x02, 0x04, 0x05, 0x06, 0x07, 0x0F, 0x46] →
      (p ∈ [0x4F, 0x70] → s.geo.isCgb = false) →
      exec (.ffWrite p v c) s = .next { s with cc := c, outputs := { extWr := some ⟨p, v, c⟩ } }) ∧
    (∀ t, exec (.ffWrite p v c) s = .next t → t.faulted = none →
      exec (.write (0xFF00#16 + p.setWidth 16) v c) s = .next t)

/-- A write of DIV, TIMA, TMA or TAC completes, in every state: it changes the timer, its trigger and, through
overflows that were due, request bit 2 and the wake rule, and nothing else; the written register holds the new value;
and the trigger is recomputed in the same command from the registers as they now are. That nothing is stored into HI is
the model's reading (log 27). -/
def Obligations.TimerWrites : Prop :=
  ∀ (s : State) (p v : Byte) (c : Cycle), Ready s → CycleOk c s → p ∈ [0x04, 0x05, 0x06, 0x07] →
    ∃ t, exec (.ffWrite p v c) s = .next t ∧
      t = { s with
        cc := c, outputs := {}, timer := t.timer, time := { s.time with tima := t.time.tima }
        irq := { s.irq with IF := t.irq.IF, halted := t.irq.halted } } ∧
      (t.irq.IF = s.irq.IF ∨ t.irq.IF = s.irq.IF ||| 0x04) ∧
      (t.irq.halted = true → s.irq.halted = true) ∧
      t.timer.timaLast = c ∧
      t.timer.divBase = (if p = 0x04 then c else s.timer.divBase) ∧
      (p = 0x05 → t.timer.tima = v) ∧
      t.timer.tma = (if p = 0x06 then v else s.timer.tma) ∧
      t.timer.tac = (if p = 0x07 then v.extractLsb' 0 3 else s.timer.tac) ∧
      (let period := [s.params.timaPeriod0, s.params.timaPeriod1, s.params.timaPeriod2, s.params.timaPeriod3].getD
        (t.timer.tac.toNat % 4) 0
       t.time.tima =
        if t.timer.tac.getLsbD 2 = false then 0xFFFFFFFF
        else t.timer.divBase + BitVec.ofNat 32
          (((c - t.timer.divBase).toNat / period + (256 - t.timer.tima.toNat)) * period))

/-- A timer write brings TIMA up to its cycle first. With no overflow due, TIMA gains the increments since it was last
brought up and no request is raised; with one due, the overflow happens at its own cycle: TIMA is reloaded from the TMA
that stood, gains the increments since, and request bit 2 is raised. And with any number of overflows due, each happens
at its own cycle, one reload interval after the one before: the last is recorded, and TIMA counts on from it. -/
def Obligations.TimerWritesCatchUp : Prop :=
  ∀ (s : State) (p v : Byte) (c : Cycle), Ready s → CycleOk c s → p ∈ [0x04, 0x05, 0x06, 0x07] →
    s.params.divWriteGlitch = false →
    let period := [s.params.timaPeriod0, s.params.timaPeriod1, s.params.timaPeriod2, s.params.timaPeriod3].getD
      (s.timer.tac.toNat % 4) 0
    let count (x : Cycle) : Int := (((x - s.timer.divBase).toNat / period : Nat) : Int)
    let reload : Cycle := s.time.tima + BitVec.ofNat 32 ((256 - s.timer.tma.toNat) * period)
    (s.timer.tac.getLsbD 2 = true → (s.time.tima = 0xFFFFFFFF ∨ c < s.time.tima) →
      ∃ t, exec (.ffWrite p v c) s = .next t ∧ t.irq = s.irq ∧ t.timer.lastOvf = s.timer.lastOvf ∧
        (p ≠ 0x05 → t.timer.tima = BitVec.ofInt 8 (s.timer.tima.toNat + count c - count s.timer.timaLast))) ∧
    (s.timer.tac.getLsbD 2 = true → s.time.tima ≠ 0xFFFFFFFF → s.time.tima ≤ c →
      (reload = 0xFFFFFFFF ∨ c < reload) →
      ∃ t, exec (.ffWrite p v c) s = .next t ∧ t.irq.IF = s.irq.IF ||| 0x04 ∧
        t.timer.lastOvf = some s.time.tima ∧
        (p ≠ 0x05 → t.timer.tima = BitVec.ofInt 8 (s.timer.tma.toNat + count c - count s.time.tima))) ∧
    (Params.legal s.params = true → s.timer.tac.getLsbD 2 = true → s.time.tima ≠ 0xFFFFFFFF → s.time.tima ≤ c →
      let interval := (256 - s.timer.tma.toNat) * period
      let last : Cycle := s.time.tima + BitVec.ofNat 32 ((c - s.time.tima).toNat / interval * interval)
      ∃ t, exec (.ffWrite p v c) s = .next t ∧ t.irq.IF = s.irq.IF ||| 0x04 ∧ t.timer.lastOvf = some last ∧
        (p ≠ 0x05 → t.timer.tima = BitVec.ofInt 8 (s.timer.tma.toNat + count c - count last))) ∧
    (s.timer.tac.getLsbD 2 = false →
      ∃ t, exec (.ffWrite p v c) s = .next t ∧ t.irq = s.irq ∧ t.timer.lastOvf = s.timer.lastOvf ∧
        (p ≠ 0x05 → t.timer.tima = s.timer.tima))

/-- The trigger computed for TIMA is its next overflow: it lies after the cycle it is computed at, exactly the missing
number of increments happen up to it, and fewer up to any cycle before it. The divider base may lie on either side of
the cycle, as a REBASE can leave it; what is asked is that the cycles since it, with one reload interval, are fewer than
2^32, past which the 32-bit difference of 42_scheduler.md R223 counts anew. -/
def Obligations.TimaScheduleIsNextOverflow : Prop :=
  ∀ (p : Params) (u : TimerUnit) (c x : Cycle), Params.legal p = true → u.tac.getLsbD 2 = true →
    c.toNat < p.rebaseLimit → (c - u.divBase).toNat + 256 * timaPeriod p u.tac < 2 ^ 32 →
    let n := timaSchedule p u c
    c < n ∧ n ≠ disabled ∧ incs p u c n = 256 - (u.tima.toNat : Int) ∧
    (c ≤ x → x < n → incs p u c x < 256 - (u.tima.toNat : Int))

/-! ## The scheduler -/

/-- EVENT completes in every state, records its cycle and answers the next event time. With nothing due it does nothing
else. Else it dispatches one unit, the one of least priority index among those that trigger first, and nothing outside
that unit changes: the trigger and the registers of every other unit, every request bit but its own, and every byte but
the OAM byte a DMA step copies are as before; the DMA source and the table change only by a DMA step. -/
def Obligations.EventCompletes : Prop :=
  ∀ (s : State) (c : Cycle), Ready s → CycleOk c s → Inv s →
    ∃ t, exec (.event c) s = .next t ∧
      t = { s with
        cc := c, arena := t.arena, banks := { s.banks with oamDmaSrc := t.banks.oamDmaSrc }, table := t.table
        time := t.time, irq := { s.irq with IF := t.irq.IF, halted := t.irq.halted }, frameDone := t.frameDone
        timer := { s.timer with tima := t.timer.tima, timaLast := t.timer.timaLast, lastOvf := t.timer.lastOvf }
        serial := t.serial, dma := { s.dma with dmaPos := t.dma.dmaPos }, draws := t.draws
        outputs := { rsp := .word (minTime t.time) } } ∧
      (c < minTime s.time → t = { s with cc := c, outputs := { rsp := .word (minTime s.time) } }) ∧
      (∀ u : SchedUnit, u ≠ nextUnit s.time → t.time.get u = s.time.get u) ∧
      (nextUnit s.time ≠ .tima → t.timer = s.timer) ∧
      (nextUnit s.time ≠ .serial → t.serial = s.serial) ∧
      (nextUnit s.time ≠ .blit → t.frameDone = s.frameDone) ∧
      (nextUnit s.time ≠ .oamDma → t.dma = s.dma ∧ t.banks = s.banks ∧ t.table = s.table) ∧
      (nextUnit s.time ≠ .oamDma → nextUnit s.time ≠ .serial → t.draws = s.draws) ∧
      (nextUnit s.time = .blit ∨ nextUnit s.time = .oamDma → t.irq = s.irq) ∧
      (∀ n, t.irq.IF.getLsbD n ≠ s.irq.IF.getLsbD n →
        (n, nextUnit s.time) ∈ [(1, SchedUnit.lyc), (2, .tima), (3, .serial)]) ∧
      (t.irq.halted = true → s.irq.halted = true) ∧
      (∀ r i, (nextUnit s.time ≠ .oamDma ∨ (r, i) ≠ (Region.hi, s.dma.dmaPos.toNat)) → t.byteAt r i = s.byteAt r i)

/-- The answers of EVENT and NEXT_EVENT_TIME are the least trigger time, and the unit dispatched is the first of
BLIT, SERIAL, OAMDMA, TIMA, LYC that triggers then. -/
def Obligations.PriorityOrder : Prop :=
  ∀ t : Times,
    (∀ u : SchedUnit, minTime t ≤ t.get u) ∧ t.get (nextUnit t) = minTime t ∧
    (∀ u : SchedUnit, t.get u = minTime t →
      [SchedUnit.blit, .serial, .oamDma, .tima, .lyc].idxOf (nextUnit t) ≤
        [SchedUnit.blit, .serial, .oamDma, .tima, .lyc].idxOf u)

/-- EVENT that dispatches one of the two frame units. BLIT: the frame flag is set and the unit is armed one frame on;
nothing else changes. LYC: the request is raised when the unit is disabled, or its line is outside the visible
range, or its register is zero; and the unit is armed one frame on. -/
def Obligations.EventFrameUnits : Prop :=
  (∀ (s : State) (c : Cycle), Ready s → CycleOk c s → s.time.blit ≤ c → s.time.blit ≤ s.time.serial →
    s.time.blit ≤ s.time.oamDma → s.time.blit ≤ s.time.tima → s.time.blit ≤ s.time.lyc →
    let frame := if s.ds then s.params.frameCycles * 2 else s.params.frameCycles
    let time := { s.time with blit := s.time.blit + BitVec.ofNat 32 frame }
    exec (.event c) s = .next { s with
      cc := c, frameDone := true, time := time, outputs := { rsp := .word (minTime time) } }) ∧
  (∀ (s : State) (c : Cycle), Ready s → CycleOk c s → s.time.lyc ≤ c → s.time.lyc < s.time.blit →
    s.time.lyc < s.time.serial → s.time.lyc < s.time.oamDma → s.time.lyc < s.time.tima →
    let frame := if s.ds then s.params.frameCycles * 2 else s.params.frameCycles
    let time := { s.time with lyc := s.time.lyc + BitVec.ofNat 32 frame }
    let raises := s.lyc.lycEnable = false ∨ s.params.lycVisibleMax < s.lyc.lycReg.toNat ∨ s.lyc.lycReg = 0
    let IF := s.irq.IF ||| 0x02
    let irq := { s.irq with IF := IF, halted := s.irq.halted && (IF &&& s.irq.IE.extractLsb' 0 5) == 0 }
    (raises → exec (.event c) s = .next { s with
      cc := c, irq := irq, time := time, outputs := { rsp := .word (minTime time) } }) ∧
    (¬raises → exec (.event c) s = .next { s with
      cc := c, time := time, outputs := { rsp := .word (minTime time) } }))

/-- EVENT that dispatches TIMA: TIMA is reloaded from TMA at the trigger time, the overflow is recorded, the timer
request is raised, and the unit is armed at the next overflow. -/
def Obligations.EventTima : Prop :=
  ∀ (s : State) (c : Cycle), Ready s → CycleOk c s → s.time.tima ≤ c → s.time.tima < s.time.blit →
    s.time.tima < s.time.serial → s.time.tima < s.time.oamDma → s.time.tima ≤ s.time.lyc →
    let o := s.time.tima
    let period := [s.params.timaPeriod0, s.params.timaPeriod1, s.params.timaPeriod2, s.params.timaPeriod3].getD
      (s.timer.tac.toNat % 4) 0
    let time := { s.time with tima := o + BitVec.ofNat 32 ((256 - s.timer.tma.toNat) * period) }
    let IF := s.irq.IF ||| 0x04
    exec (.event c) s = .next { s with
      cc := c
      timer := { s.timer with tima := s.timer.tma, timaLast := o, lastOvf := some o }
      irq := { s.irq with IF := IF, halted := s.irq.halted && (IF &&& s.irq.IE.extractLsb' 0 5) == 0 }
      time := time
      outputs := { rsp := .word (minTime time) } }

/-- EVENT that dispatches SERIAL with bits left to shift: a one is shifted in; the last bit clears the start bit, raises
the serial request and disarms the unit, any other arms it one bit on. And as many dispatches as bits are left shift
that many ones in, whatever their times: after eight, SB is 0xFF and the request is set. -/
def Obligations.EventSerial : Prop :=
  (∀ (s : State) (c : Cycle), Ready s → CycleOk c s → s.time.serial ≤ c → s.time.serial < s.time.blit →
    s.time.serial ≤ s.time.oamDma → s.time.serial ≤ s.time.tima → s.time.serial ≤ s.time.lyc →
    s.serial.serialBits ≠ 0 →
    let sb := s.serial.sb <<< 1 ||| 1
    let IF := s.irq.IF ||| 0x08
    let last := { s.time with serial := 0xFFFFFFFF }
    let bit := if s.geo.isCgb && s.serial.sc.getLsbD 1 then s.params.serialBitFast else s.params.serialBitSlow
    let more := { s.time with serial := s.time.serial + BitVec.ofNat 32 bit }
    (s.serial.serialBits = 1 → exec (.event c) s = .next { s with
      cc := c, serial := { sb := sb, sc := s.serial.sc &&& 0x7F, serialBits := 0 }
      irq := { s.irq with IF := IF, halted := s.irq.halted && (IF &&& s.irq.IE.extractLsb' 0 5) == 0 }
      time := last, outputs := { rsp := .word (minTime last) } }) ∧
    (s.serial.serialBits ≠ 1 → exec (.event c) s = .next { s with
      cc := c, serial := { s.serial with sb := sb, serialBits := s.serial.serialBits - 1 }
      time := more, outputs := { rsp := .word (minTime more) } })) ∧
  (∀ (s : State) (times : List Cycle), s.serial.serialBits = 8 → times.length = 8 →
    let t := times.foldl (fun s x => serialDispatch x s) s
    t.serial.sb = 0xFF ∧ t.serial.serialBits = 0 ∧ t.irq.IF.getLsbD 3 = true ∧ t.serial.sc = s.serial.sc &&& 0x7F ∧
      t.time.serial = 0xFFFFFFFF)

/-- EVENT that dispatches OAMDMA, one DMA step: contention takes the class of the source page, the OAM byte at the
position becomes the byte of the source address, the position moves on; the last step ends contention and disarms the
unit, any other arms it one byte on. -/
def Obligations.EventOamDma : Prop :=
  ∀ (s : State) (c : Cycle), Ready s → CycleOk c s → Inv s → s.time.oamDma ≤ c → s.time.oamDma < s.time.blit →
    s.time.oamDma < s.time.serial → s.time.oamDma ≤ s.time.tima → s.time.oamDma ≤ s.time.lyc →
    let i := s.dma.dmaPos
    let ends := (i + 1).toNat = s.params.dmaBytes
    let src := if ends then DmaSrc.off else dmaClass s.dma.dmaReg
    let banks := { s.banks with oamDmaSrc := src }
    let time := { s.time with oamDma :=
      if ends then 0xFFFFFFFF else s.time.oamDma + BitVec.ofNat 32 s.params.dmaByteCycles }
    ∃ (t u : State) (v : Byte), dmaSourceByte (s.dma.dmaReg.toNat * 256 + i.toNat) s = .ok (v, u) ∧
      exec (.event c) s = .next t ∧
      t = { s with
        cc := c, arena := t.arena, dma := { s.dma with dmaPos := i + 1 }, banks := banks
        table := deriveTable s.params s.geo banks, time := time, draws := u.draws
        outputs := { rsp := .word (minTime time) } } ∧
      StoresOnly s t .hi i.toNat v

/-- The byte a DMA step reads, by source address, through the base mapping and not through contention. -/
def Obligations.DmaSourceMap : Prop :=
  ∀ (s : State) (a : Nat), s.loaded = true → BanksLegal s →
    let gives (v : Byte) := dmaSourceByte a s = .ok (v, s)
    let free := dmaSourceByte a s = .ok (Config.freeByte s.draws, { s with draws := s.draws + 1 })
    (a < 0x4000 → gives (s.byteAt .rom (s.banks.rombank0.toNat * 0x4000 + a))) ∧
    (0x4000 ≤ a → a < 0x8000 → gives (s.byteAt .rom (s.banks.rombank.toNat * 0x4000 + (a - 0x4000)))) ∧
    (0x8000 ≤ a → a < 0xA000 → s.inputs.vramOk = true →
      gives (s.byteAt .vram (s.banks.vrambank.toNat * 0x2000 + (a - 0x8000)))) ∧
    (0x8000 ≤ a → a < 0xA000 → s.inputs.vramOk = false → free) ∧
    (0xA000 ≤ a → a < 0xC000 → s.banks.ramFlags.getLsbD 0 = true → s.banks.ramFlags.getLsbD 2 = true →
      gives s.inputs.cartRd) ∧
    (0xA000 ≤ a → a < 0xC000 → s.banks.ramFlags.getLsbD 0 = true → s.banks.ramFlags.getLsbD 2 = false →
      s.geo.ramBanks ≠ 0 → gives (s.byteAt .sram (s.banks.rambank.toNat * 0x2000 + (a - 0xA000)))) ∧
    (0xA000 ≤ a → a < 0xC000 → (s.banks.ramFlags.getLsbD 0 = false ∨
      (s.banks.ramFlags.getLsbD 2 = false ∧ s.geo.ramBanks = 0)) → gives (s.byteAt .disr (a - 0xA000))) ∧
    (0xC000 ≤ a → a < 0xD000 → gives (s.byteAt .wram (a - 0xC000))) ∧
    (0xD000 ≤ a → a < 0xE000 →
      gives (s.byteAt .wram (max s.banks.wrambankSel.toNat 1 * 0x1000 + (a - 0xD000)))) ∧
    (0xE000 ≤ a → free)

/-- Progress: a dispatch leaves its unit disarmed or armed strictly after the time it ran at. -/
def Obligations.DispatchMovesOn : Prop :=
  ∀ (s t : State) (c : Cycle), Params.legal s.params = true → Ready s → Inv s → minTime s.time ≤ c →
    exec (.event c) s = .next t → t.faulted = none →
      t.time.get (nextUnit s.time) = disabled ∨ minTime s.time < t.time.get (nextUnit s.time)

/-- EVENT repeated at one cycle dispatches finitely many units: the run loop always comes to a state in which every
unit due at that cycle has been dispatched, and the machine is then still ready. The port values stand for the whole
run, which is the model's choice (log 28). -/
def Obligations.RunLoopCatchesUp : Prop :=
  ∀ (s : State) (c : Cycle), Params.legal s.params = true → Ready s → CycleOk c s → Inv s →
    ∃ (n : Nat) (t : State), runTo n c s = .next t ∧ Ready t ∧ t.cc = c ∧ c < minTime t.time ∧
      t.outputs.rsp = .word (minTime t.time)

/-! ## Bank window operations -/

/-- RESET, all three ways it can go. An illegal geometry raises F_BANK; a failed allocation answers false and leaves no
cartridge; a success answers true, installs the geometry, the image, the sentinel, the default banks and no DMA, and
touches neither the counter, nor the interrupt state, nor any unit but OAM DMA. The drawn contents and the drawn DMA
register are left open. -/
def Obligations.ResetLoadsCartridge : Prop :=
  ∀ (s : State) (rom : BitVec 16) (ram : BitVec 8) (wram : BitVec 4) (cgb : Bool), s.faulted = none →
    let legal := 2 ≤ rom.toNat ∧ 2 ≤ wram.toNat ∧ wram.toNat ≤ 8
    (¬legal → ∃ t, exec (.reset rom ram wram cgb) s = .next t ∧
      Raised (.reset rom ram wram cgb) .bank (.geometry rom ram wram cgb) s t) ∧
    (legal → s.inputs.alloc = false →
      exec (.reset rom ram wram cgb) s = .next { s with
        loaded := false, running := false, outputs := { rsp := .bit false } }) ∧
    (legal → s.inputs.alloc = true → ∃ t, exec (.reset rom ram wram cgb) s = .next t ∧
      t = { s with
        loaded := true, running := false
        geo := { romBanks := rom, ramBanks := ram, wramBanks := wram, isCgb := cgb }
        banks := { rombank0 := 0, rombank := 1, rambank := 0, ramFlags := 0, vrambank := 0, wrambankSel := 1,
                   oamDmaSrc := .off }
        arena := t.arena, table := t.table, time := { s.time with oamDma := 0xFFFFFFFF }
        dma := { dmaReg := t.dma.dmaReg, dmaPos := 0 }, draws := s.draws + 1, outputs := { rsp := .bit true } } ∧
      TableDerived t ∧ MemoryCanonical t ∧ BanksLegal t ∧
      (∀ i, i < rom.toNat * 0x4000 → t.byteAt .rom i = Memory.read 0 s.inputs.romImg i) ∧
      (∀ i, t.byteAt .disr i = 0xFF))

/-- SET_ROMBANK0, SET_ROMBANK, SET_RAMBANK, SET_WRAMBANK and SET_VRAMBANK: a legal bank is recorded and the whole table
derived, which is all that changes; an absent bank raises F_BANK with the operand. Every ROM bank below the count is
legal, 0 included; with no cartridge RAM every RAM bank is; of the WRAM operand only bits 2:0 count, and selection 0
stands for bank 1; VRAM has the banks 0 and 1. -/
def Obligations.SetBanks : Prop :=
  ∀ (s : State) (bank : BitVec 16) (ram : BitVec 8) (flags : BitVec 3), s.faulted = none → s.loaded = true →
    let becomes (i : Instr) (b : Banks) :=
      exec i s = .next { s with banks := b, table := deriveTable s.params s.geo b, outputs := {} }
    let raises (i : Instr) (info : FaultInfo) := ∃ t, exec i s = .next t ∧ Raised i .bank info s t
    (bank.toNat < s.geo.romBanks.toNat →
      becomes (.setRombank0 bank) { s.banks with rombank0 := bank } ∧
      becomes (.setRombank bank) { s.banks with rombank := bank }) ∧
    (s.geo.romBanks.toNat ≤ bank.toNat →
      raises (.setRombank0 bank) (.bank bank) ∧ raises (.setRombank bank) (.bank bank)) ∧
    ((s.geo.ramBanks = 0 ∨ ram.toNat < s.geo.ramBanks.toNat) →
      becomes (.setRambank ram flags) { s.banks with rambank := ram, ramFlags := flags }) ∧
    (s.geo.ramBanks ≠ 0 → s.geo.ramBanks.toNat ≤ ram.toNat →
      raises (.setRambank ram flags) (.bank (ram.setWidth 16))) ∧
    (max (bank.toNat % 8) 1 < s.geo.wramBanks.toNat →
      becomes (.setWrambank bank) { s.banks with wrambankSel := bank.extractLsb' 0 3 }) ∧
    (s.geo.wramBanks.toNat ≤ max (bank.toNat % 8) 1 → raises (.setWrambank bank) (.bank bank)) ∧
    (bank.toNat ≤ 1 → becomes (.setVrambank bank) { s.banks with vrambank := bank.extractLsb' 0 1 }) ∧
    (1 < bank.toNat → raises (.setVrambank bank) (.bank bank))

/-- SET_OAMDMASRC: each of the six sources is recorded and the table derived, which is all it changes; the codes 6 and
7 raise F_ILLEGAL_CMD. -/
def Obligations.SetDmaSource : Prop :=
  ∀ (s : State) (code : BitVec 3) (d : DmaSrc), s.faulted = none → s.loaded = true →
    let banks := { s.banks with oamDmaSrc := d }
    ((code, d) ∈ [(0#3, DmaSrc.rom), (1#3, .sram), (2#3, .vram), (3#3, .wram), (4#3, .invalid), (5#3, .off)] →
      exec (.setOamDmaSrc code) s = .next { s with
        banks := banks, table := deriveTable s.params s.geo banks, outputs := {} }) ∧
    (5 < code.toNat → ∃ t, exec (.setOamDmaSrc code) s = .next t ∧
      Raised (.setOamDmaSrc code) .illegalCmd (.packet (encode (.setOamDmaSrc code))) s t)

/-- After SET_ROMBANK of any legal bank, with no DMA blocking the ROM, READ of an address of the switchable window
answers the byte of that bank, bank 0 included. -/
def Obligations.SetRombankThenRead : Prop :=
  ∀ (s t : State) (bank : BitVec 16) (a : Addr) (c : Cycle), Ready s → Inv s → CycleOk c s →
    bank.toNat < s.geo.romBanks.toNat → 0x4000 ≤ a.toNat → a.toNat < 0x8000 → s.romBlocked = false →
    exec (.setRombank bank) s = .next t →
    ∃ u, exec (.read a c) t = .next u ∧
      u.outputs.rsp = .byte (s.byteAt .rom (bank.toNat * 0x4000 + (a.toNat - 0x4000)))

/-- After SET_RAMBANK with no contention, the read and the write window of cartridge RAM are enabled apart: a disabled
read answers 0xFF, a disabled write is dropped, a write-only period stores and still reads 0xFF, and no RAM reads 0xFF
and drops writes for every setting without the clock. -/
def Obligations.SetRambankThenAccess : Prop :=
  ∀ (s t : State) (bank : BitVec 8) (flags : BitVec 3) (a : Addr) (v : Byte) (c : Cycle), Ready s → Inv s →
    CycleOk c s → 0xA000 ≤ a.toNat → a.toNat < 0xC000 → s.sramBlocked = false →
    exec (.setRambank bank flags) s = .next t → t.faulted = none →
    let i := bank.toNat * 0x2000 + (a.toNat - 0xA000)
    let reads (b : Byte) := exec (.read a c) t = .next { t with cc := c, outputs := { rsp := .byte b } }
    (flags.getLsbD 0 = false → reads 0xFF) ∧
    (flags.getLsbD 2 = false → s.geo.ramBanks = 0 → reads 0xFF) ∧
    (flags.getLsbD 0 = true → flags.getLsbD 2 = false → s.geo.ramBanks ≠ 0 → reads (s.byteAt .sram i)) ∧
    (flags.getLsbD 0 = true → flags.getLsbD 2 = true → reads s.inputs.cartRd) ∧
    ((flags.getLsbD 1 = false ∨ (flags.getLsbD 2 = false ∧ s.geo.ramBanks = 0)) →
      exec (.write a v c) t = .next { t with cc := c, outputs := {} }) ∧
    (flags.getLsbD 1 = true → flags.getLsbD 2 = true →
      exec (.write a v c) t = .next { t with cc := c, outputs := { cartCtl := some ⟨a, v, c⟩ } }) ∧
    (flags.getLsbD 1 = true → flags.getLsbD 2 = false → s.geo.ramBanks ≠ 0 →
      ∃ u, exec (.write a v c) t = .next u ∧ u = { t with cc := c, arena := u.arena, outputs := {} } ∧
        StoresOnly t u .sram i v)

/-- The bank commands are idempotent: issued again with the same operands each leaves the state as its first issue left
it. RESET issued again with the same ports, the contents the environment draws for the RAM among them (log 5), draws the
DMA register again (log 11) and changes nothing else. The spec draws the RAM afresh too; that it is then the same is a
matter of those ports, which the model holds as inputs. -/
def Obligations.BankCommandsIdempotent : Prop :=
  (∀ (s t : State) (i : Instr) (w : BitVec 16) (b : BitVec 8) (f code : BitVec 3),
    i ∈ [.setRombank0 w, .setRombank w, .setRambank b f, .setWrambank w, .setVrambank w, .setOamDmaSrc code] →
    exec i s = .next t → t.faulted = none → exec i t = .next t) ∧
  (∀ (s t : State) (rom : BitVec 16) (ram : BitVec 8) (wram : BitVec 4) (cgb : Bool), s.inputs.alloc = true →
    exec (.reset rom ram wram cgb) s = .next t → t.faulted = none →
    exec (.reset rom ram wram cgb) t = .next { t with
      draws := t.draws + 1, dma := { t.dma with dmaReg := Config.freeByte t.draws } })

/-! ## Machine reset, double speed, rebasing -/

/-- MRESET with a legal LY view: the counter and every register of every unit as the rule lists them, the banks and
memory as they were, the DMA source off, the triggers computed at cycle 0, the machine running. With an illegal LY view
it raises F_CONTRACT with that view. With the default parameters and the LY view (0, 456) the triggers are those of the
rule's example. -/
def Obligations.MachineReset : Prop :=
  (∀ s : State, s.faulted = none → s.loaded = true →
    let legal := s.inputs.ly.toNat ≤ s.params.lastLine ∧ 0 < s.inputs.lyTime.toNat ∧
      s.inputs.lyTime.toNat ≤ s.params.lineCycles
    let banks := { s.banks with oamDmaSrc := .off }
    (legal → ∃ t, exec .mreset s = .next t ∧
      t = { s with
        cc := 0, ds := false, running := true, frameDone := false, outputs := {}
        irq := { IF := s.params.init.IF, IE := s.params.init.IE, ime := false, halted := false, eiCycle := 0 }
        lyc := { lycReg := 0, lycEnable := false }
        timer := { divBase := 0, tima := s.params.init.TIMA, timaLast := 0, tma := s.params.init.TMA,
                   tac := s.params.init.TAC, lastOvf := none }
        serial := { sb := s.params.init.SB, sc := s.params.init.SC, serialBits := 0 }
        dma := { s.dma with dmaPos := 0 }
        banks := banks, table := deriveTable s.params s.geo banks, time := t.time } ∧
      t.time.serial = 0xFFFFFFFF ∧ t.time.oamDma = 0xFFFFFFFF ∧
      t.time.tima = timaSchedule t.params t.timer 0 ∧ t.time.lyc = lycSchedule t 0 ∧ t.time.blit = blitSchedule t 0) ∧
    (¬legal → ∃ t, exec .mreset s = .next t ∧
      Raised .mreset .contract (.lyView s.inputs.ly s.inputs.lyTime) s t)) ∧
  (∀ s : State, s.faulted = none → s.loaded = true → s.params = {} → s.inputs.ly = 0 → s.inputs.lyTime = 456 →
    ∃ t, exec .mreset s = .next t ∧ t.time.lyc = 69775 ∧ t.time.blit = 65664 ∧ t.time.tima = 0xFFFFFFFF)

/-- SET_DS and LYC_CFG with an LY view that is legal at their cycle: the flag, or the compare register and enable, are
written and the triggers recomputed; nothing else changes. With an illegal view each raises F_CONTRACT with it; SET_DS
checks the view with the new speed. -/
def Obligations.SpeedAndLineCompare : Prop :=
  ∀ (s : State) (ds en : Bool) (lyc : Byte) (c : Cycle), Ready s → CycleOk c s →
    let legal (ds : Bool) := s.inputs.ly.toNat ≤ s.params.lastLine ∧ 0 < (s.inputs.lyTime - c).toNat ∧
      (s.inputs.lyTime - c).toNat ≤ (if ds then s.params.lineCycles * 2 else s.params.lineCycles)
    let s1 := { s with cc := c, ds := ds, outputs := {} }
    let s2 := { s with cc := c, lyc := { lycReg := lyc, lycEnable := en }, outputs := {} }
    (legal ds → exec (.setDs ds c) s = .next { s1 with
      time := { s.time with lyc := lycSchedule s1 c, blit := blitSchedule s1 c } }) ∧
    (¬legal ds → ∃ t, exec (.setDs ds c) s = .next t ∧
      Raised (.setDs ds c) .contract (.lyView s.inputs.ly s.inputs.lyTime) s t) ∧
    (legal s.ds → exec (.lycCfg lyc en c) s = .next { s2 with time := { s.time with lyc := lycSchedule s2 c } }) ∧
    (¬legal s.ds → ∃ t, exec (.lycCfg lyc en c) s = .next t ∧
      Raised (.lycCfg lyc en c) .contract (.lyView s.inputs.ly s.inputs.lyTime) s t)

/-- The LYC and BLIT triggers, computed at a cycle at which the LY view is legal, are the source's line arithmetic moved
back by a frame or not, and lie after that cycle and at most one frame on; a compare register above the last line
disarms LYC. -/
def Obligations.TriggersWithinFrame : Prop :=
  ∀ (s : State) (c : Cycle), Params.legal s.params = true → 0 < s.params.lastLine →
    s.inputs.ly.toNat ≤ s.params.lastLine → 0 < (s.inputs.lyTime - c).toNat →
    (s.inputs.lyTime - c).toNat ≤ (if s.ds then s.params.lineCycles * 2 else s.params.lineCycles) →
    let k := if s.ds then 2 else 1
    let frame := BitVec.ofNat 32 (s.params.frameCycles * k)
    let toFrameStart := (s.params.lastLine - s.inputs.ly.toNat) * s.params.lineCycles * k
    let target := (if s.lyc.lycReg = 0 then s.params.lastLine * s.params.lineCycles + s.params.lyc0Offset
      else s.lyc.lycReg.toNat * s.params.lineCycles) * k
    let line := s.inputs.lyTime + BitVec.ofNat 32 (toFrameStart + target) - 1
    let blank := s.inputs.lyTime + BitVec.ofNat 32 (toFrameStart + s.params.vblankLine * s.params.lineCycles * k)
    (s.params.lastLine < s.lyc.lycReg.toNat → lycSchedule s c = 0xFFFFFFFF) ∧
    (s.lyc.lycReg.toNat ≤ s.params.lastLine →
      (lycSchedule s c = line ∨ lycSchedule s c = line - frame) ∧
      0 < (lycSchedule s c - c).toNat ∧ (lycSchedule s c - c).toNat ≤ s.params.frameCycles * k) ∧
    (blitSchedule s c = blank ∨ blitSchedule s c = blank - frame) ∧
    0 < (blitSchedule s c - c).toNat ∧ (blitSchedule s c - c).toNat ≤ s.params.frameCycles * k

/-- REBASE by a delta at most the counter and the next event time moves the counter, every armed trigger, the divider
base, the last TIMA time, the last overflow and the EI cycle back by it, and nothing else; a larger delta raises
F_CONTRACT with it. -/
def Obligations.RebaseMovesCycles : Prop :=
  ∀ (s : State) (d : Cycle), Ready s →
    let back (t : Cycle) : Cycle := if t = 0xFFFFFFFF then t else t - d
    let ok := d ≤ s.cc ∧ ∀ u : SchedUnit, d ≤ s.time.get u
    (ok → exec (.rebase d) s = .next { s with
      cc := s.cc - d
      time := { blit := back s.time.blit, serial := back s.time.serial, oamDma := back s.time.oamDma
                tima := back s.time.tima, lyc := back s.time.lyc }
      timer := { s.timer with divBase := s.timer.divBase - d, timaLast := s.timer.timaLast - d
                              lastOvf := s.timer.lastOvf.map (fun o => o - d) }
      irq := { s.irq with eiCycle := s.irq.eiCycle - d }, outputs := {} }) ∧
    (¬ok → ∃ t, exec (.rebase d) s = .next t ∧ Raised (.rebase d) .contract (.delta d) s t)

/-- REBASE is seen by no read but for the absolute cycles: at a cycle moved back by the delta DIV, TIMA, every address and
every I/O register answer what they answered before at the cycle itself, with the same free values; the next event time
moves back by the delta too; and the service test of the CPU (43_irq_halt.md R259) is as before while the EI cycle is
not below the delta. Where it is below, R216 wraps it past the counter and the test of R259, which compares it unsigned,
is false. -/
def Obligations.RebaseIsInvisible : Prop :=
  ∀ (s t : State) (d c : Cycle), Ready s → exec (.rebase d) s = .next t → t.faulted = none → CycleOk c s →
    (∃ u w, exec (.ffRead 0x04 c) s = .next u ∧ exec (.ffRead 0x04 (c - d)) t = .next w ∧
      w.outputs = u.outputs) ∧
    (∃ u w, exec (.ffRead 0x05 c) s = .next u ∧ exec (.ffRead 0x05 (c - d)) t = .next w ∧
      w.outputs = u.outputs ∧ w.draws = u.draws) ∧
    (Inv s → ∀ (a : Addr) (p : Byte),
      (∃ u w, exec (.read a c) s = .next u ∧ exec (.read a (c - d)) t = .next w ∧
        w.outputs = u.outputs ∧ w.draws = u.draws) ∧
      (∃ u w, exec (.ffRead p c) s = .next u ∧ exec (.ffRead p (c - d)) t = .next w ∧
        w.outputs = u.outputs ∧ w.draws = u.draws)) ∧
    (d ≤ s.irq.eiCycle → mayService t.irq (c - d) = mayService s.irq c) ∧
    (s.irq.eiCycle < d → mayService t.irq (c - d) = false) ∧
    minTime t.time = (if minTime s.time = 0xFFFFFFFF then minTime s.time else minTime s.time - d)

/-! ## Queries, interrupt and halt gate -/

/-- The queries NEXT_EVENT_TIME, IME, HALTED and STATE_SIZE answer and change nothing; the next event time is never the
disabled sentinel; STATE_SIZE needs a cartridge only, and 32 bits hold the exact size; TAKE_FRAME answers the frame flag
and clears it, so that a second one answers 0. -/
def Obligations.Queries : Prop :=
  (∀ s : State, Ready s → Inv s →
    exec .nextEventTime s = .next { s with outputs := { rsp := .word (minTime s.time) } } ∧
    minTime s.time ≠ 0xFFFFFFFF ∧
    exec .ime s = .next { s with outputs := { rsp := .bit s.irq.ime } } ∧
    exec .halted s = .next { s with outputs := { rsp := .bit s.irq.halted } } ∧
    (let t := { s with frameDone := false, outputs := { rsp := .bit s.frameDone } }
     exec .takeFrame s = .next t ∧ exec .takeFrame t = .next { t with outputs := { rsp := .bit false } })) ∧
  (∀ s : State, s.faulted = none → s.loaded = true →
    ∃ n, exec .stateSize s = .next { s with outputs := { rsp := .word n } } ∧
      n.toNat = 0x4240 + s.geo.wramBanks.toNat * 0x1000 + s.geo.ramBanks.toNat * 0x2000)

/-- HALT, EI, DI and IRQ_IN: what each writes, with the wake rule, and nothing else. HALT with a request pending leaves
the CPU awake, whatever IME is. -/
def Obligations.InterruptCommands : Prop :=
  ∀ (s : State) (m : BitVec 5) (c : Cycle), Ready s →
    let quiet (r : BitVec 5) : Bool := (r &&& s.irq.IE.extractLsb' 0 5) == 0
    exec .halt s = .next { s with irq := { s.irq with halted := quiet s.irq.IF }, outputs := {} } ∧
    exec .di s = .next { s with irq := { s.irq with ime := false }, outputs := {} } ∧
    (CycleOk c s →
      exec (.ei c) s = .next { s with cc := c, irq := { s.irq with ime := true, eiCycle := c }, outputs := {} } ∧
      exec (.irqIn m c) s = .next { s with
        cc := c
        irq := { s.irq with IF := s.irq.IF ||| m, halted := s.irq.halted && quiet (s.irq.IF ||| m) }
        outputs := {} })

/-- A request bit, once set, is cleared only by a write of IF, by LOAD_STATE and by MRESET. -/
def Obligations.RequestsHeldUntilCleared : Prop :=
  ∀ (i : Instr) (s t : State) (n : Nat), exec i s = .next t →
    s.irq.IF.getLsbD n = true → t.irq.IF.getLsbD n = false →
    (∃ v c, i = .ffWrite 0x0F v c) ∨ (∃ v c, i = .write 0xFF0F v c) ∨ i = .loadState ∨ i = .mreset

/-- Who may change what, over every command: the counter goes back only by REBASE, MRESET and LOAD_STATE (LOAD_STATE
restores a saved counter, 44_save_state.md R286, which 42_scheduler.md R200 does not name; log 16); IME only EI, DI,
MRESET and LOAD_STATE; the CPU becomes halted only by HALT and LOAD_STATE; the EI record only EI, REBASE, MRESET and
LOAD_STATE; the double-speed flag only SET_DS, MRESET and LOAD_STATE; the LYC registers only LYC_CFG, MRESET and
LOAD_STATE. -/
def Obligations.WhoWritesControlState : Prop :=
  ∀ (i : Instr) (s t : State), exec i s = .next t →
    (t.cc < s.cc → i = .mreset ∨ (∃ d, i = .rebase d) ∨ i = .loadState) ∧
    (t.irq.ime ≠ s.irq.ime → (∃ c, i = .ei c) ∨ i = .di ∨ i = .mreset ∨ i = .loadState) ∧
    (t.irq.halted = true → s.irq.halted = false → i = .halt ∨ i = .loadState) ∧
    (t.irq.eiCycle ≠ s.irq.eiCycle → (∃ c, i = .ei c) ∨ (∃ d, i = .rebase d) ∨ i = .mreset ∨ i = .loadState) ∧
    (t.ds ≠ s.ds → (∃ d c, i = .setDs d c) ∨ i = .mreset ∨ i = .loadState) ∧
    (t.lyc ≠ s.lyc → (∃ l e c, i = .lycCfg l e c) ∨ i = .mreset ∨ i = .loadState)

/-- RESET is the only command that changes the geometry, the ROM image or the loaded flag; the disabled-RAM sentinel
is never written; and bank registers change only by the commands that name them, by a write of VBK or SVBK, by RESET
and by LOAD_STATE. -/
def Obligations.GeometryAndRomFixed : Prop :=
  ∀ (i : Instr) (s t : State), Inv s → exec i s = .next t → (∀ rom ram wram cgb, i ≠ .reset rom ram wram cgb) →
    t.geo = s.geo ∧ t.params = s.params ∧ t.loaded = s.loaded ∧
    (∀ j, t.byteAt .rom j = s.byteAt .rom j) ∧ (∀ j, t.byteAt .disr j = s.byteAt .disr j) ∧
    (t.banks.rombank0 ≠ s.banks.rombank0 → (∃ b, i = .setRombank0 b) ∨ i = .loadState) ∧
    (t.banks.rombank ≠ s.banks.rombank → (∃ b, i = .setRombank b) ∨ i = .loadState) ∧
    ((t.banks.rambank ≠ s.banks.rambank ∨ t.banks.ramFlags ≠ s.banks.ramFlags) →
      (∃ b f, i = .setRambank b f) ∨ i = .loadState) ∧
    (t.banks.vrambank ≠ s.banks.vrambank →
      (∃ b, i = .setVrambank b) ∨ (∃ v c, i = .ffWrite 0x4F v c) ∨ (∃ v c, i = .write 0xFF4F v c) ∨ i = .loadState) ∧
    (t.banks.wrambankSel ≠ s.banks.wrambankSel →
      (∃ b, i = .setWrambank b) ∨ (∃ v c, i = .ffWrite 0x70 v c) ∨ (∃ v c, i = .write 0xFF70 v c) ∨ i = .loadState) ∧
    (t.banks.oamDmaSrc ≠ s.banks.oamDmaSrc →
      (∃ d, i = .setOamDmaSrc d) ∨ (∃ c, i = .event c) ∨ i = .mreset ∨ i = .loadState)

/-! ## Save state -/

/-- SAVE_STATE changes nothing and fills the buffer with a blob of exactly the state size, whose fields stand at their
offsets, little-endian, and whose regions hold every byte of HI, VRAM, WRAM and SRAM. -/
def Obligations.SaveStateLayout : Prop :=
  ∀ s : State, Ready s →
    ∃ b : List Byte, exec .saveState s = .next { s with outputs := { rsp := .bit true, buf := some b } } ∧
      b.length = 0x4240 + s.geo.wramBanks.toNat * 0x1000 + s.geo.ramBanks.toNat * 0x2000 ∧
      blob32 b 0x00 = s.cc ∧ (∀ k, k < 4 → blobByte b k = s.cc.extractLsb' (8 * k) 8) ∧
      (∀ k, k < 2 → blobByte b (0x0C + k) = s.banks.rombank0.extractLsb' (8 * k) 8) ∧
      (∀ n, (blobByte b 0x04).getLsbD n = [s.ds, s.irq.ime, s.irq.halted, s.frameDone, s.lyc.lycEnable,
        s.timer.lastOvf.isSome].getD n false) ∧
      blobByte b 0x05 = s.irq.IF.setWidth 8 ∧ blobByte b 0x06 = s.irq.IE ∧ blobByte b 0x07 = s.lyc.lycReg ∧
      blob32 b 0x08 = s.irq.eiCycle ∧ blob16 b 0x0C = s.banks.rombank0 ∧ blob16 b 0x0E = s.banks.rombank ∧
      blobByte b 0x10 = s.banks.rambank ∧ blobByte b 0x11 = s.banks.ramFlags.setWidth 8 ∧
      blobByte b 0x12 = s.banks.wrambankSel.setWidth 8 ∧ blobByte b 0x13 = s.banks.vrambank.setWidth 8 ∧
      DmaSrc.ofCode (blobByte b 0x14).toNat = some s.banks.oamDmaSrc ∧
      blobByte b 0x15 = s.dma.dmaPos ∧ blobByte b 0x16 = s.dma.dmaReg ∧
      blob32 b 0x18 = s.time.blit ∧ blob32 b 0x1C = s.time.serial ∧ blob32 b 0x20 = s.time.oamDma ∧
      blob32 b 0x24 = s.time.tima ∧ blob32 b 0x28 = s.time.lyc ∧
      blob32 b 0x2C = s.timer.divBase ∧ blob32 b 0x30 = s.timer.timaLast ∧
      blob32 b 0x34 = s.timer.lastOvf.getD 0 ∧
      blobByte b 0x38 = s.timer.tima ∧ blobByte b 0x39 = s.timer.tma ∧ blobByte b 0x3A = s.timer.tac.setWidth 8 ∧
      blobByte b 0x3B = s.serial.sb ∧ blobByte b 0x3C = s.serial.sc ∧
      blobByte b 0x3D = s.serial.serialBits.setWidth 8 ∧
      blobByte b 0x17 = 0 ∧ blobByte b 0x3E = 0 ∧ blobByte b 0x3F = 0 ∧
      (∀ i, i < 0x200 → blobByte b (0x40 + i) = s.byteAt .hi i) ∧
      (∀ i, i < 0x4000 → blobByte b (0x240 + i) = s.byteAt .vram i) ∧
      (∀ i, i < s.geo.wramBanks.toNat * 0x1000 → blobByte b (0x4240 + i) = s.byteAt .wram i) ∧
      (∀ i, i < s.geo.ramBanks.toNat * 0x2000 →
        blobByte b (0x4240 + s.geo.wramBanks.toNat * 0x1000 + i) = s.byteAt .sram i)

/-- LOAD_STATE is all or nothing. A blob of the wrong size answers false and changes nothing; a blob of the right size
with a field outside its valid set, the "valid on load" column of 44_save_state.md R281 written out here by offset,
raises F_STATE_FIELD with the offset of the first such field and changes nothing. -/
def Obligations.LoadStateRejects : Prop :=
  ∀ s : State, s.faulted = none → s.loaded = true →
    let b := s.inputs.buf
    let size := 0x4240 + s.geo.wramBanks.toNat * 0x1000 + s.geo.ramBanks.toNat * 0x2000
    let valid : List (Nat × Prop) := [
      (0x00, (blob32 b 0x00).toNat < s.params.rebaseLimit),
      (0x04, (blobByte b 0x04).extractLsb' 6 2 = 0#2),
      (0x05, (blobByte b 0x05).extractLsb' 5 3 = 0#3),
      (0x0C, (blob16 b 0x0C).toNat < s.geo.romBanks.toNat),
      (0x0E, (blob16 b 0x0E).toNat < s.geo.romBanks.toNat),
      (0x10, 0 < s.geo.ramBanks.toNat → (blobByte b 0x10).toNat < s.geo.ramBanks.toNat),
      (0x11, (blobByte b 0x11).extractLsb' 3 5 = 0#5),
      (0x12, (blobByte b 0x12).extractLsb' 3 5 = 0#5 ∧ max (blobByte b 0x12).toNat 1 < s.geo.wramBanks.toNat),
      (0x13, (blobByte b 0x13).extractLsb' 1 7 = 0#7),
      (0x14, (blobByte b 0x14).toNat ≤ 5),
      (0x15, (blobByte b 0x15).toNat ≤ s.params.dmaBytes),
      (0x18, blob32 b 0x18 ≠ 0xFFFFFFFF),
      (0x3A, (blobByte b 0x3A).extractLsb' 3 5 = 0#5),
      (0x3D, (blobByte b 0x3D).toNat ≤ 8)]
    (b.length ≠ size → exec .loadState s = .next { s with outputs := { rsp := .bit false } }) ∧
    (b.length = size → (∃ x ∈ valid, ¬x.2) →
      ∃ (t : State) (off : Nat) (holds : Prop), (off, holds) ∈ valid ∧ ¬holds ∧ (∀ x ∈ valid, x.1 < off → x.2) ∧
        exec .loadState s = .next t ∧ Raised .loadState .stateField (.offset off) s t)

/-- LOAD_STATE of a blob of the right size with every field valid, the conditions of 44_save_state.md R281 being the
hypotheses, completes from every state with a cartridge and no fault, running or not: it answers true, the machine runs,
every field of the layout and every byte of its four regions comes from the blob, the table is derived from the restored
banks, a halted CPU with a request pending wakes, and ROM, the sentinel, the geometry, the parameters, the input ports
and the waiting commands are as they were. -/
def Obligations.LoadStateRestores : Prop :=
  ∀ s : State, s.faulted = none → s.loaded = true →
    let b := s.inputs.buf
    b.length = 0x4240 + s.geo.wramBanks.toNat * 0x1000 + s.geo.ramBanks.toNat * 0x2000 →
    (blob32 b 0x00).toNat < s.params.rebaseLimit →
    (blobByte b 0x04).extractLsb' 6 2 = 0#2 →
    (blobByte b 0x05).extractLsb' 5 3 = 0#3 →
    (blob16 b 0x0C).toNat < s.geo.romBanks.toNat →
    (blob16 b 0x0E).toNat < s.geo.romBanks.toNat →
    (0 < s.geo.ramBanks.toNat → (blobByte b 0x10).toNat < s.geo.ramBanks.toNat) →
    (blobByte b 0x11).extractLsb' 3 5 = 0#5 →
    ((blobByte b 0x12).extractLsb' 3 5 = 0#5 ∧ max (blobByte b 0x12).toNat 1 < s.geo.wramBanks.toNat) →
    (blobByte b 0x13).extractLsb' 1 7 = 0#7 →
    (blobByte b 0x14).toNat ≤ 5 →
    (blobByte b 0x15).toNat ≤ s.params.dmaBytes →
    blob32 b 0x18 ≠ 0xFFFFFFFF →
    (blobByte b 0x3A).extractLsb' 3 5 = 0#5 →
    (blobByte b 0x3D).toNat ≤ 8 →
    ∃ t, exec .loadState s = .next t ∧ t.outputs = { rsp := .bit true } ∧ t.running = true ∧ t.loaded = true ∧
      t.faulted = none ∧ t.geo = s.geo ∧ t.params = s.params ∧ t.inputs = s.inputs ∧ t.draws = s.draws ∧
      t.commands = s.commands ∧ t.table = deriveTable t.params t.geo t.banks ∧
      t.cc = blob32 b 0x00 ∧ t.ds = (blobByte b 0x04).getLsbD 0 ∧
      t.frameDone = (blobByte b 0x04).getLsbD 3 ∧
      t.irq.IF.setWidth 8 = blobByte b 0x05 ∧ t.irq.IE = blobByte b 0x06 ∧ t.irq.ime = (blobByte b 0x04).getLsbD 1 ∧
      t.irq.halted =
        ((blobByte b 0x04).getLsbD 2 && (blobByte b 0x05 &&& blobByte b 0x06).extractLsb' 0 5 == 0#5) ∧
      t.irq.eiCycle = blob32 b 0x08 ∧
      t.lyc.lycReg = blobByte b 0x07 ∧ t.lyc.lycEnable = (blobByte b 0x04).getLsbD 4 ∧
      t.banks.rombank0 = blob16 b 0x0C ∧ t.banks.rombank = blob16 b 0x0E ∧ t.banks.rambank = blobByte b 0x10 ∧
      t.banks.ramFlags.setWidth 8 = blobByte b 0x11 ∧ t.banks.wrambankSel.setWidth 8 = blobByte b 0x12 ∧
      t.banks.vrambank.setWidth 8 = blobByte b 0x13 ∧
      ((blobByte b 0x14).toNat, t.banks.oamDmaSrc) ∈
        [(0, DmaSrc.rom), (1, .sram), (2, .vram), (3, .wram), (4, .invalid), (5, .off)] ∧
      t.dma.dmaPos = blobByte b 0x15 ∧ t.dma.dmaReg = blobByte b 0x16 ∧
      t.time.blit = blob32 b 0x18 ∧ t.time.serial = blob32 b 0x1C ∧ t.time.oamDma = blob32 b 0x20 ∧
      t.time.tima = blob32 b 0x24 ∧ t.time.lyc = blob32 b 0x28 ∧
      t.timer.divBase = blob32 b 0x2C ∧ t.timer.timaLast = blob32 b 0x30 ∧
      t.timer.lastOvf = (if (blobByte b 0x04).getLsbD 5 then some (blob32 b 0x34) else none) ∧
      t.timer.tima = blobByte b 0x38 ∧ t.timer.tma = blobByte b 0x39 ∧ t.timer.tac.setWidth 8 = blobByte b 0x3A ∧
      t.serial.sb = blobByte b 0x3B ∧ t.serial.sc = blobByte b 0x3C ∧
      t.serial.serialBits.setWidth 8 = blobByte b 0x3D ∧
      t.arena.rom = s.arena.rom ∧ t.arena.disr = s.arena.disr ∧
      (∀ i, i < 0x200 → t.byteAt .hi i = blobByte b (0x40 + i)) ∧
      (∀ i, i < 0x4000 → t.byteAt .vram i = blobByte b (0x240 + i)) ∧
      (∀ i, i < s.geo.wramBanks.toNat * 0x1000 → t.byteAt .wram i = blobByte b (0x4240 + i)) ∧
      (∀ i, i < s.geo.ramBanks.toNat * 0x2000 →
        t.byteAt .sram i = blobByte b (0x4240 + s.geo.wramBanks.toNat * 0x1000 + i))

/-- Save and load: the blob of a state, loaded at any later point under the same cartridge load (`u`: the same
parameters, geometry, ROM and sentinel, a cartridge and no fault, everything else arbitrary), gives that state again,
every register, every byte and the whole window table; only the ports, the waiting commands and the model's draw count
are `u`'s. That holds of every state whose DMA position is in the range of 10_state.md R36, and the rest of the
statement is that the machine stays there: every command but LOAD_STATE keeps the range, RESET and MRESET enter it from
any state, and LOAD_STATE of a blob that SAVE_STATE made of a state in the range, the only blobs 44_save_state.md R281
calls valid, enters it too. A blob no SAVE_STATE wrote can leave it: that corner is log 13's. -/
def Obligations.SaveLoadRoundTrip : Prop :=
  (∀ (s t u : State) (b : List Byte), Ready s → Inv s → DmaInRange s →
    exec .saveState s = .next t → t.outputs.buf = some b →
    u.faulted = none → u.loaded = true → u.params = s.params → u.geo = s.geo → u.arena.rom = s.arena.rom →
    u.arena.disr = s.arena.disr → u.inputs.buf = b →
    exec .loadState u = .next { s with
      inputs := u.inputs, commands := u.commands, draws := u.draws, outputs := { rsp := .bit true } } ∧
    ∀ v, exec .loadState u = .next v → DmaInRange v) ∧
  (∀ (i : Instr) (s t : State), 0 < s.params.dmaBytes → exec i s = .next t → i ≠ .loadState →
    DmaInRange s ∨ (t.faulted = none ∧ t.outputs.rsp ≠ .bit false ∧
      (i = .mreset ∨ ∃ rom ram wram cgb, i = .reset rom ram wram cgb)) → DmaInRange t)
end

