-- ==== Sys2Proof/Laws/Encoding.lean ====
section
/-! SUPPORT. The fields of a packed packet, and a packet from its fields (30_encoding.md R100). -/

namespace Sys2Proof

@[simp] theorem opField_packFields (op : BitVec 8) (a : BitVec 16) (b : BitVec 8) (c : BitVec 32) :
    opField (packFields op a b c) = op := by
  ext i hi
  simp only [opField, packFields, BitVec.getElem_extractLsb', BitVec.getLsbD_append]
  rw [if_neg (by omega), if_neg (by omega), if_neg (by omega)]
  simp only [show 56 + i - 32 - 8 - 16 = i by omega, BitVec.getLsbD_eq_getElem hi]

@[simp] theorem aField_packFields (op : BitVec 8) (a : BitVec 16) (b : BitVec 8) (c : BitVec 32) :
    aField (packFields op a b c) = a := by
  ext i hi
  simp only [aField, packFields, BitVec.getElem_extractLsb', BitVec.getLsbD_append]
  rw [if_neg (by omega), if_neg (by omega), if_pos (by omega)]
  simp only [show 40 + i - 32 - 8 = i by omega, BitVec.getLsbD_eq_getElem hi]

@[simp] theorem bField_packFields (op : BitVec 8) (a : BitVec 16) (b : BitVec 8) (c : BitVec 32) :
    bField (packFields op a b c) = b := by
  ext i hi
  simp only [bField, packFields, BitVec.getElem_extractLsb', BitVec.getLsbD_append]
  rw [if_neg (by omega), if_pos (by omega)]
  simp only [show 32 + i - 32 = i by omega, BitVec.getLsbD_eq_getElem hi]

@[simp] theorem cField_packFields (op : BitVec 8) (a : BitVec 16) (b : BitVec 8) (c : BitVec 32) :
    cField (packFields op a b c) = c := by
  ext i hi
  simp only [cField, packFields, BitVec.getElem_extractLsb', BitVec.getLsbD_append]
  rw [if_pos (by omega)]
  simp only [show 0 + i = i by omega, BitVec.getLsbD_eq_getElem hi]

/-- A packet is its four fields, packed: no bit of it is outside them. -/
theorem packFields_fields (p : Packet) : packFields (opField p) (aField p) (bField p) (cField p) = p := by
  apply BitVec.eq_of_getLsbD_eq
  intro i hi
  simp only [packFields, opField, aField, bField, cField, BitVec.getLsbD_append, BitVec.getLsbD_extractLsb']
  split
  · rename_i h; simp [h]
  · split
    · rename_i h; rw [show 32 + (i - 32) = i by omega]; simp [h]
    · split
      · rename_i h; rw [show 40 + (i - 32 - 8) = i by omega]; simp [h]
      · rw [show 56 + (i - 32 - 8 - 16) = i by omega]; simp [show i - 32 - 8 - 16 < 8 by omega]

@[simp] theorem decode_packFields (op : BitVec 8) (a : BitVec 16) (b : BitVec 8) (c : BitVec 32) :
    decode (packFields op a b c) = decodeFields op a b c := by
  simp [decode]

@[simp] theorem lowA_append (x y : BitVec 8) : lowA (x ++ y) = y := by
  apply BitVec.eq_of_getLsbD_eq
  intro i hi
  simp only [lowA, BitVec.getLsbD_extractLsb', hi, decide_true, Bool.true_and, Nat.zero_add]
  exact (BitVec.getLsbD_append ..).trans (by simp [hi])

@[simp] theorem highA_append (x y : BitVec 8) : highA (x ++ y) = x := by
  apply BitVec.eq_of_getLsbD_eq
  intro i hi
  simp only [highA, BitVec.getLsbD_extractLsb', hi, decide_true, Bool.true_and]
  exact (BitVec.getLsbD_append ..).trans (by simp [show 8 + i - 8 = i by omega])

/-- The high byte and the low byte make up A. -/
theorem highA_lowA (a : BitVec 16) : highA a ++ lowA a = a := by
  apply BitVec.eq_of_getLsbD_eq
  intro i hi
  simp only [highA, lowA, BitVec.getLsbD_append, BitVec.getLsbD_extractLsb']
  split
  · rename_i h; simp [h]
  · rw [show 8 + (i - 8) = i by omega]; simp [show i - 8 < 8 by omega]

end Sys2Proof
end

