-- ==== Sys2Proof/Laws/Memory.lean ====
section
/-! SUPPORT. The sparse byte arrays: reading after writing, the canonical form and what keeps it, and that canonical
arrays with the same bytes are the same data. -/

namespace Sys2Proof.Machine

open Sys2Proof

variable {fill : Byte} {len : Nat}

@[simp] theorem Memory.read_nil (i : Nat) : Memory.read fill [] i = fill := rfl

theorem Memory.read_cons (a : Nat) (b : Byte) (rest : Memory) (i : Nat) :
    Memory.read fill ((a, b) :: rest) i = if a = i then b else Memory.read fill rest i := rfl

/-! ## Reading after writing -/

theorem Memory.read_erase (m : Memory) (i j : Nat) :
    Memory.read fill (Memory.erase m i) j = if i = j then fill else Memory.read fill m j := by
  induction m with
  | nil => simp [Memory.erase, Memory.read]
  | cons c rest ih =>
    obtain ⟨a, b⟩ := c
    simp only [Memory.erase]
    split
    · rename_i h; subst h
      rw [ih, Memory.read_cons]
      split <;> simp_all
    · rw [Memory.read_cons, Memory.read_cons, ih]
      split <;> split <;> simp_all

theorem Memory.read_insert (m : Memory) (i j : Nat) (v : Byte) :
    Memory.read fill (Memory.insert m i v) j = if i = j then v else Memory.read fill m j := by
  induction m with
  | nil => simp [Memory.insert, Memory.read]
  | cons c rest ih =>
    obtain ⟨a, b⟩ := c
    simp only [Memory.insert]
    split
    · rw [Memory.read_cons, Memory.read_cons, ih]
      have : ¬ a = i := by omega
      split <;> split <;> simp_all
    · split
      · rename_i h; subst h
        rw [Memory.read_cons, Memory.read_cons]
        split <;> simp_all
      · rw [Memory.read_cons]

/-- Reading after a write: the byte written at its index, and every other byte as before. -/
theorem Memory.read_write (m : Memory) (i j : Nat) (v : Byte) :
    Memory.read fill (Memory.write fill m i v) j = if i = j then v else Memory.read fill m j := by
  unfold Memory.write
  split
  · rename_i h; rw [Memory.read_erase]; simp [h]
  · rw [Memory.read_insert]

@[simp] theorem Memory.read_write_same (m : Memory) (i : Nat) (v : Byte) :
    Memory.read fill (Memory.write fill m i v) i = v := by simp [Memory.read_write]

theorem Memory.read_write_other (m : Memory) {i j : Nat} (v : Byte) (h : i ≠ j) :
    Memory.read fill (Memory.write fill m i v) j = Memory.read fill m j := by simp [Memory.read_write, h]

/-! ## The canonical form -/

theorem Memory.wfFrom_cons (low a : Nat) (b : Byte) (rest : Memory) :
    Memory.wfFrom fill len low ((a, b) :: rest) = true ↔
      low ≤ a ∧ a < len ∧ b ≠ fill ∧ Memory.wfFrom fill len (a + 1) rest = true := by
  simp [Memory.wfFrom, and_assoc]

theorem Memory.wfFrom_mono {m : Memory} {low low' : Nat} (hl : low' ≤ low)
    (h : Memory.wfFrom fill len low m = true) : Memory.wfFrom fill len low' m = true := by
  cases m with
  | nil => rfl
  | cons c rest =>
    obtain ⟨a, b⟩ := c
    rw [Memory.wfFrom_cons] at h ⊢
    exact ⟨by omega, h.2⟩

/-- An index below the first listed one reads as the filler. -/
theorem Memory.read_below {m : Memory} {low i : Nat} (h : Memory.wfFrom fill len low m = true) (hi : i < low) :
    Memory.read fill m i = fill := by
  induction m generalizing low with
  | nil => rfl
  | cons c rest ih =>
    obtain ⟨a, b⟩ := c
    rw [Memory.wfFrom_cons] at h
    rw [Memory.read_cons, if_neg (by omega)]
    exact ih h.2.2.2 (by omega)

/-- An index past the region reads as the filler. -/
theorem Memory.read_past {m : Memory} {low i : Nat} (h : Memory.wfFrom fill len low m = true) (hi : len ≤ i) :
    Memory.read fill m i = fill := by
  induction m generalizing low with
  | nil => rfl
  | cons c rest ih =>
    obtain ⟨a, b⟩ := c
    rw [Memory.wfFrom_cons] at h
    rw [Memory.read_cons, if_neg (by omega)]
    exact ih h.2.2.2

theorem Memory.erase_wfFrom {m : Memory} {low : Nat} (i : Nat) (h : Memory.wfFrom fill len low m = true) :
    Memory.wfFrom fill len low (Memory.erase m i) = true := by
  induction m generalizing low with
  | nil => rfl
  | cons c rest ih =>
    obtain ⟨a, b⟩ := c
    rw [Memory.wfFrom_cons] at h
    simp only [Memory.erase]
    split
    · exact Memory.wfFrom_mono (by omega) (ih h.2.2.2)
    · rw [Memory.wfFrom_cons]
      exact ⟨h.1, h.2.1, h.2.2.1, ih h.2.2.2⟩

theorem Memory.insert_wfFrom {m : Memory} {low i : Nat} {v : Byte} (hl : low ≤ i) (hi : i < len) (hv : v ≠ fill)
    (h : Memory.wfFrom fill len low m = true) : Memory.wfFrom fill len low (Memory.insert m i v) = true := by
  induction m generalizing low with
  | nil => simp only [Memory.insert, Memory.wfFrom_cons]; exact ⟨hl, hi, hv, rfl⟩
  | cons c rest ih =>
    obtain ⟨a, b⟩ := c
    rw [Memory.wfFrom_cons] at h
    simp only [Memory.insert]
    split
    · rw [Memory.wfFrom_cons]
      exact ⟨h.1, h.2.1, h.2.2.1, ih (by omega) h.2.2.2⟩
    · split
      · rename_i _ e; subst e
        rw [Memory.wfFrom_cons]
        exact ⟨hl, hi, hv, h.2.2.2⟩
      · rw [Memory.wfFrom_cons, Memory.wfFrom_cons]
        exact ⟨hl, hi, hv, by omega, h.2⟩

/-- A write inside the region keeps the canonical form. -/
theorem Memory.write_wf {m : Memory} {i : Nat} (v : Byte) (hi : i < len) (h : Memory.wf fill len m = true) :
    Memory.wf fill len (Memory.write fill m i v) = true := by
  unfold Memory.write
  split
  · exact Memory.erase_wfFrom i h
  · rename_i hv; exact Memory.insert_wfFrom (Nat.zero_le i) hi hv h

/-- The array a list of pairs denotes is canonical. -/
theorem Memory.ofCells_wf (cells : List Host.Cell) : Memory.wf fill len (Memory.ofCells fill len cells) = true := by
  induction cells with
  | nil => rfl
  | cons c rest ih =>
    simp only [Memory.ofCells, List.foldr_cons] at ih ⊢
    split
    · rename_i h; exact Memory.write_wf c.2 h ih
    · exact ih

/-- The array a list of pairs denotes reads as the list's first pair of an index, below the length. -/
theorem Memory.read_ofCells (cells : List Host.Cell) (i : Nat) :
    Memory.read fill (Memory.ofCells fill len cells) i = if i < len then Memory.read fill cells i else fill := by
  induction cells with
  | nil => simp [Memory.ofCells]
  | cons c rest ih =>
    obtain ⟨a, b⟩ := c
    have h : Memory.ofCells fill len ((a, b) :: rest) =
        if a < len then Memory.write fill (Memory.ofCells fill len rest) a b else Memory.ofCells fill len rest := rfl
    rw [h, Memory.read_cons]
    split_ifs <;> (simp_all [Memory.read_write]; try omega)

theorem Memory.ofBytesFrom_wfFrom (bytes : List Byte) (i : Nat) (h : i + bytes.length ≤ len) :
    Memory.wfFrom fill len i (Memory.ofBytesFrom fill i bytes) = true := by
  induction bytes generalizing i with
  | nil => rfl
  | cons b rest ih =>
    simp only [List.length_cons] at h
    simp only [Memory.ofBytesFrom]
    split
    · exact Memory.wfFrom_mono (by omega) (ih (i + 1) (by omega))
    · rename_i hb
      rw [Memory.wfFrom_cons]
      exact ⟨Nat.le_refl i, by omega, hb, ih (i + 1) (by omega)⟩

/-- The array of a list of bytes that fits the region is canonical. -/
theorem Memory.ofBytes_wf (bytes : List Byte) (h : bytes.length ≤ len) :
    Memory.wf fill len (Memory.ofBytes fill bytes) = true :=
  Memory.ofBytesFrom_wfFrom bytes 0 (by omega)

theorem Memory.read_ofBytesFrom (bytes : List Byte) (i j : Nat) :
    Memory.read fill (Memory.ofBytesFrom fill i bytes) j =
      if i ≤ j then bytes.getD (j - i) fill else fill := by
  induction bytes generalizing i with
  | nil => simp [Memory.ofBytesFrom]
  | cons b rest ih =>
    have key : (if i + 1 ≤ j then rest.getD (j - (i + 1)) fill else fill) =
        if i = j then fill else if i ≤ j then (b :: rest).getD (j - i) fill else fill := by
      by_cases hij : i = j
      · simp [hij]
      · by_cases hle : i ≤ j
        · rw [if_pos (by omega), if_neg hij, if_pos hle, show j - i = (j - (i + 1)) + 1 by omega]
          rfl
        · rw [if_neg (by omega), if_neg hij, if_neg hle]
    simp only [Memory.ofBytesFrom]
    split
    · rename_i hb
      rw [ih, key]
      split
      · rename_i e; subst e; simp [hb]
      · rfl
    · rw [Memory.read_cons, ih, key]
      split
      · rename_i e; subst e; simp
      · rfl

/-- Byte `j` of the array of a list of bytes. -/
theorem Memory.read_ofBytes (bytes : List Byte) (j : Nat) :
    Memory.read fill (Memory.ofBytes fill bytes) j = bytes.getD j fill := by
  simp [Memory.ofBytes, Memory.read_ofBytesFrom]

/-- Canonical arrays with the same bytes are the same data. -/
theorem Memory.ext_wfFrom {m n : Memory} {low : Nat} (hm : Memory.wfFrom fill len low m = true)
    (hn : Memory.wfFrom fill len low n = true) (h : ∀ i, Memory.read fill m i = Memory.read fill n i) : m = n := by
  induction m generalizing n low with
  | nil =>
    cases n with
    | nil => rfl
    | cons c rest =>
      obtain ⟨a, b⟩ := c
      rw [Memory.wfFrom_cons] at hn
      have := h a
      rw [Memory.read_cons, if_pos rfl] at this
      exact absurd this.symm hn.2.2.1
  | cons c rest ih =>
    obtain ⟨a, b⟩ := c
    rw [Memory.wfFrom_cons] at hm
    cases n with
    | nil =>
      have := h a
      rw [Memory.read_cons, if_pos rfl] at this
      exact absurd this hm.2.2.1
    | cons d rest' =>
      obtain ⟨a', b'⟩ := d
      rw [Memory.wfFrom_cons] at hn
      have ha : a = a' := by
        rcases Nat.lt_trichotomy a a' with hlt | heq | hgt
        · have := h a
          rw [Memory.read_cons, if_pos rfl, Memory.read_cons, if_neg (by omega),
            Memory.read_below hn.2.2.2 (by omega)] at this
          exact absurd this hm.2.2.1
        · exact heq
        · have := h a'
          rw [Memory.read_cons, if_neg (by omega), Memory.read_below hm.2.2.2 (by omega), Memory.read_cons,
            if_pos rfl] at this
          exact absurd this.symm hn.2.2.1
      subst ha
      have hb : b = b' := by
        have := h a
        rwa [Memory.read_cons, if_pos rfl, Memory.read_cons, if_pos rfl] at this
      subst hb
      have hr : rest = rest' := by
        refine ih hm.2.2.2 hn.2.2.2 fun i => ?_
        by_cases hi : a = i
        · subst hi
          rw [Memory.read_below hm.2.2.2 (by omega), Memory.read_below hn.2.2.2 (by omega)]
        · have := h i
          rwa [Memory.read_cons, if_neg hi, Memory.read_cons, if_neg hi] at this
      rw [hr]

/-- Canonical arrays with the same bytes are the same data. -/
theorem Memory.ext_wf {m n : Memory} (hm : Memory.wf fill len m = true) (hn : Memory.wf fill len n = true)
    (h : ∀ i, Memory.read fill m i = Memory.read fill n i) : m = n :=
  Memory.ext_wfFrom hm hn h

/-- Storing the byte that stands at an index changes nothing (log 15). -/
theorem Memory.write_read {m : Memory} {i : Nat} (hi : i < len) (h : Memory.wf fill len m = true) :
    Memory.write fill m i (Memory.read fill m i) = m :=
  Memory.ext_wf (Memory.write_wf _ hi h) h fun j => by
    rw [Memory.read_write]
    split
    · rename_i e; rw [e]
    · rfl

@[simp] theorem Memory.toBytes_length (n : Nat) (m : Memory) : (Memory.toBytes fill n m).length = n := by
  simp [Memory.toBytes]

/-- A canonical array is the array of its bytes. -/
theorem Memory.ofBytes_toBytes {m : Memory} (h : Memory.wf fill len m = true) :
    Memory.ofBytes fill (Memory.toBytes fill len m) = m := by
  refine Memory.ext_wf (Memory.ofBytes_wf _ (by simp)) h fun i => ?_
  rw [Memory.read_ofBytes]
  by_cases hi : i < len
  · simp [Memory.toBytes, List.getD, hi]
  · rw [Memory.read_past h (by omega)]
    simp [Memory.toBytes, List.getD, hi]

end Sys2Proof.Machine
end

