-- ==== Sys2Proof/Laws/State.lean ====
section
/-! SUPPORT. One lemma per field per named update of State, true by rfl (a trigger time by cases on the unit), so
that no later proof unfolds a record update. -/

namespace Sys2Proof.Machine

open Sys2Proof

/-! ### setTime -/

@[simp] theorem State.setTime_params (u : SchedUnit) (v : Cycle) (s : State) : (s.setTime u v).params = s.params := by cases u <;> rfl
@[simp] theorem State.setTime_loaded (u : SchedUnit) (v : Cycle) (s : State) : (s.setTime u v).loaded = s.loaded := by cases u <;> rfl
@[simp] theorem State.setTime_running (u : SchedUnit) (v : Cycle) (s : State) : (s.setTime u v).running = s.running := by cases u <;> rfl
@[simp] theorem State.setTime_geo (u : SchedUnit) (v : Cycle) (s : State) : (s.setTime u v).geo = s.geo := by cases u <;> rfl
@[simp] theorem State.setTime_arena (u : SchedUnit) (v : Cycle) (s : State) : (s.setTime u v).arena = s.arena := by cases u <;> rfl
@[simp] theorem State.setTime_banks (u : SchedUnit) (v : Cycle) (s : State) : (s.setTime u v).banks = s.banks := by cases u <;> rfl
@[simp] theorem State.setTime_table (u : SchedUnit) (v : Cycle) (s : State) : (s.setTime u v).table = s.table := by cases u <;> rfl
@[simp] theorem State.setTime_cc (u : SchedUnit) (v : Cycle) (s : State) : (s.setTime u v).cc = s.cc := by cases u <;> rfl
@[simp] theorem State.setTime_ds (u : SchedUnit) (v : Cycle) (s : State) : (s.setTime u v).ds = s.ds := by cases u <;> rfl
@[simp] theorem State.setTime_irq (u : SchedUnit) (v : Cycle) (s : State) : (s.setTime u v).irq = s.irq := by cases u <;> rfl
@[simp] theorem State.setTime_frameDone (u : SchedUnit) (v : Cycle) (s : State) : (s.setTime u v).frameDone = s.frameDone := by cases u <;> rfl
@[simp] theorem State.setTime_lyc (u : SchedUnit) (v : Cycle) (s : State) : (s.setTime u v).lyc = s.lyc := by cases u <;> rfl
@[simp] theorem State.setTime_timer (u : SchedUnit) (v : Cycle) (s : State) : (s.setTime u v).timer = s.timer := by cases u <;> rfl
@[simp] theorem State.setTime_serial (u : SchedUnit) (v : Cycle) (s : State) : (s.setTime u v).serial = s.serial := by cases u <;> rfl
@[simp] theorem State.setTime_dma (u : SchedUnit) (v : Cycle) (s : State) : (s.setTime u v).dma = s.dma := by cases u <;> rfl
@[simp] theorem State.setTime_faulted (u : SchedUnit) (v : Cycle) (s : State) : (s.setTime u v).faulted = s.faulted := by cases u <;> rfl
@[simp] theorem State.setTime_inputs (u : SchedUnit) (v : Cycle) (s : State) : (s.setTime u v).inputs = s.inputs := by cases u <;> rfl
@[simp] theorem State.setTime_outputs (u : SchedUnit) (v : Cycle) (s : State) : (s.setTime u v).outputs = s.outputs := by cases u <;> rfl
@[simp] theorem State.setTime_commands (u : SchedUnit) (v : Cycle) (s : State) : (s.setTime u v).commands = s.commands := by cases u <;> rfl
@[simp] theorem State.setTime_draws (u : SchedUnit) (v : Cycle) (s : State) : (s.setTime u v).draws = s.draws := by cases u <;> rfl

/-! ### wakeRule -/

@[simp] theorem State.wakeRule_params (s : State) : (s.wakeRule).params = s.params := rfl
@[simp] theorem State.wakeRule_loaded (s : State) : (s.wakeRule).loaded = s.loaded := rfl
@[simp] theorem State.wakeRule_running (s : State) : (s.wakeRule).running = s.running := rfl
@[simp] theorem State.wakeRule_geo (s : State) : (s.wakeRule).geo = s.geo := rfl
@[simp] theorem State.wakeRule_arena (s : State) : (s.wakeRule).arena = s.arena := rfl
@[simp] theorem State.wakeRule_banks (s : State) : (s.wakeRule).banks = s.banks := rfl
@[simp] theorem State.wakeRule_table (s : State) : (s.wakeRule).table = s.table := rfl
@[simp] theorem State.wakeRule_cc (s : State) : (s.wakeRule).cc = s.cc := rfl
@[simp] theorem State.wakeRule_ds (s : State) : (s.wakeRule).ds = s.ds := rfl
@[simp] theorem State.wakeRule_time (s : State) : (s.wakeRule).time = s.time := rfl
@[simp] theorem State.wakeRule_irq (s : State) : (s.wakeRule).irq = wakeIrq s.irq := rfl
@[simp] theorem State.wakeRule_frameDone (s : State) : (s.wakeRule).frameDone = s.frameDone := rfl
@[simp] theorem State.wakeRule_lyc (s : State) : (s.wakeRule).lyc = s.lyc := rfl
@[simp] theorem State.wakeRule_timer (s : State) : (s.wakeRule).timer = s.timer := rfl
@[simp] theorem State.wakeRule_serial (s : State) : (s.wakeRule).serial = s.serial := rfl
@[simp] theorem State.wakeRule_dma (s : State) : (s.wakeRule).dma = s.dma := rfl
@[simp] theorem State.wakeRule_faulted (s : State) : (s.wakeRule).faulted = s.faulted := rfl
@[simp] theorem State.wakeRule_inputs (s : State) : (s.wakeRule).inputs = s.inputs := rfl
@[simp] theorem State.wakeRule_outputs (s : State) : (s.wakeRule).outputs = s.outputs := rfl
@[simp] theorem State.wakeRule_commands (s : State) : (s.wakeRule).commands = s.commands := rfl
@[simp] theorem State.wakeRule_draws (s : State) : (s.wakeRule).draws = s.draws := rfl

/-! ### raiseIrq -/

@[simp] theorem State.raiseIrq_params (m : BitVec 5) (s : State) : (s.raiseIrq m).params = s.params := rfl
@[simp] theorem State.raiseIrq_loaded (m : BitVec 5) (s : State) : (s.raiseIrq m).loaded = s.loaded := rfl
@[simp] theorem State.raiseIrq_running (m : BitVec 5) (s : State) : (s.raiseIrq m).running = s.running := rfl
@[simp] theorem State.raiseIrq_geo (m : BitVec 5) (s : State) : (s.raiseIrq m).geo = s.geo := rfl
@[simp] theorem State.raiseIrq_arena (m : BitVec 5) (s : State) : (s.raiseIrq m).arena = s.arena := rfl
@[simp] theorem State.raiseIrq_banks (m : BitVec 5) (s : State) : (s.raiseIrq m).banks = s.banks := rfl
@[simp] theorem State.raiseIrq_table (m : BitVec 5) (s : State) : (s.raiseIrq m).table = s.table := rfl
@[simp] theorem State.raiseIrq_cc (m : BitVec 5) (s : State) : (s.raiseIrq m).cc = s.cc := rfl
@[simp] theorem State.raiseIrq_ds (m : BitVec 5) (s : State) : (s.raiseIrq m).ds = s.ds := rfl
@[simp] theorem State.raiseIrq_time (m : BitVec 5) (s : State) : (s.raiseIrq m).time = s.time := rfl
@[simp] theorem State.raiseIrq_irq (m : BitVec 5) (s : State) : (s.raiseIrq m).irq = wakeIrq { s.irq with IF := s.irq.IF ||| m } := rfl
@[simp] theorem State.raiseIrq_frameDone (m : BitVec 5) (s : State) : (s.raiseIrq m).frameDone = s.frameDone := rfl
@[simp] theorem State.raiseIrq_lyc (m : BitVec 5) (s : State) : (s.raiseIrq m).lyc = s.lyc := rfl
@[simp] theorem State.raiseIrq_timer (m : BitVec 5) (s : State) : (s.raiseIrq m).timer = s.timer := rfl
@[simp] theorem State.raiseIrq_serial (m : BitVec 5) (s : State) : (s.raiseIrq m).serial = s.serial := rfl
@[simp] theorem State.raiseIrq_dma (m : BitVec 5) (s : State) : (s.raiseIrq m).dma = s.dma := rfl
@[simp] theorem State.raiseIrq_faulted (m : BitVec 5) (s : State) : (s.raiseIrq m).faulted = s.faulted := rfl
@[simp] theorem State.raiseIrq_inputs (m : BitVec 5) (s : State) : (s.raiseIrq m).inputs = s.inputs := rfl
@[simp] theorem State.raiseIrq_outputs (m : BitVec 5) (s : State) : (s.raiseIrq m).outputs = s.outputs := rfl
@[simp] theorem State.raiseIrq_commands (m : BitVec 5) (s : State) : (s.raiseIrq m).commands = s.commands := rfl
@[simp] theorem State.raiseIrq_draws (m : BitVec 5) (s : State) : (s.raiseIrq m).draws = s.draws := rfl

/-! ### derive -/

@[simp] theorem State.derive_params (s : State) : (s.derive).params = s.params := rfl
@[simp] theorem State.derive_loaded (s : State) : (s.derive).loaded = s.loaded := rfl
@[simp] theorem State.derive_running (s : State) : (s.derive).running = s.running := rfl
@[simp] theorem State.derive_geo (s : State) : (s.derive).geo = s.geo := rfl
@[simp] theorem State.derive_arena (s : State) : (s.derive).arena = s.arena := rfl
@[simp] theorem State.derive_banks (s : State) : (s.derive).banks = s.banks := rfl
@[simp] theorem State.derive_table (s : State) : (s.derive).table = deriveTable s.params s.geo s.banks := rfl
@[simp] theorem State.derive_cc (s : State) : (s.derive).cc = s.cc := rfl
@[simp] theorem State.derive_ds (s : State) : (s.derive).ds = s.ds := rfl
@[simp] theorem State.derive_time (s : State) : (s.derive).time = s.time := rfl
@[simp] theorem State.derive_irq (s : State) : (s.derive).irq = s.irq := rfl
@[simp] theorem State.derive_frameDone (s : State) : (s.derive).frameDone = s.frameDone := rfl
@[simp] theorem State.derive_lyc (s : State) : (s.derive).lyc = s.lyc := rfl
@[simp] theorem State.derive_timer (s : State) : (s.derive).timer = s.timer := rfl
@[simp] theorem State.derive_serial (s : State) : (s.derive).serial = s.serial := rfl
@[simp] theorem State.derive_dma (s : State) : (s.derive).dma = s.dma := rfl
@[simp] theorem State.derive_faulted (s : State) : (s.derive).faulted = s.faulted := rfl
@[simp] theorem State.derive_inputs (s : State) : (s.derive).inputs = s.inputs := rfl
@[simp] theorem State.derive_outputs (s : State) : (s.derive).outputs = s.outputs := rfl
@[simp] theorem State.derive_commands (s : State) : (s.derive).commands = s.commands := rfl
@[simp] theorem State.derive_draws (s : State) : (s.derive).draws = s.draws := rfl

/-! ### setDmaSrc -/

@[simp] theorem State.setDmaSrc_params (src : DmaSrc) (s : State) : (s.setDmaSrc src).params = s.params := rfl
@[simp] theorem State.setDmaSrc_loaded (src : DmaSrc) (s : State) : (s.setDmaSrc src).loaded = s.loaded := rfl
@[simp] theorem State.setDmaSrc_running (src : DmaSrc) (s : State) : (s.setDmaSrc src).running = s.running := rfl
@[simp] theorem State.setDmaSrc_geo (src : DmaSrc) (s : State) : (s.setDmaSrc src).geo = s.geo := rfl
@[simp] theorem State.setDmaSrc_arena (src : DmaSrc) (s : State) : (s.setDmaSrc src).arena = s.arena := rfl
@[simp] theorem State.setDmaSrc_banks (src : DmaSrc) (s : State) : (s.setDmaSrc src).banks = { s.banks with oamDmaSrc := src } := rfl
@[simp] theorem State.setDmaSrc_table (src : DmaSrc) (s : State) : (s.setDmaSrc src).table = deriveTable s.params s.geo { s.banks with oamDmaSrc := src } := rfl
@[simp] theorem State.setDmaSrc_cc (src : DmaSrc) (s : State) : (s.setDmaSrc src).cc = s.cc := rfl
@[simp] theorem State.setDmaSrc_ds (src : DmaSrc) (s : State) : (s.setDmaSrc src).ds = s.ds := rfl
@[simp] theorem State.setDmaSrc_time (src : DmaSrc) (s : State) : (s.setDmaSrc src).time = s.time := rfl
@[simp] theorem State.setDmaSrc_irq (src : DmaSrc) (s : State) : (s.setDmaSrc src).irq = s.irq := rfl
@[simp] theorem State.setDmaSrc_frameDone (src : DmaSrc) (s : State) : (s.setDmaSrc src).frameDone = s.frameDone := rfl
@[simp] theorem State.setDmaSrc_lyc (src : DmaSrc) (s : State) : (s.setDmaSrc src).lyc = s.lyc := rfl
@[simp] theorem State.setDmaSrc_timer (src : DmaSrc) (s : State) : (s.setDmaSrc src).timer = s.timer := rfl
@[simp] theorem State.setDmaSrc_serial (src : DmaSrc) (s : State) : (s.setDmaSrc src).serial = s.serial := rfl
@[simp] theorem State.setDmaSrc_dma (src : DmaSrc) (s : State) : (s.setDmaSrc src).dma = s.dma := rfl
@[simp] theorem State.setDmaSrc_faulted (src : DmaSrc) (s : State) : (s.setDmaSrc src).faulted = s.faulted := rfl
@[simp] theorem State.setDmaSrc_inputs (src : DmaSrc) (s : State) : (s.setDmaSrc src).inputs = s.inputs := rfl
@[simp] theorem State.setDmaSrc_outputs (src : DmaSrc) (s : State) : (s.setDmaSrc src).outputs = s.outputs := rfl
@[simp] theorem State.setDmaSrc_commands (src : DmaSrc) (s : State) : (s.setDmaSrc src).commands = s.commands := rfl
@[simp] theorem State.setDmaSrc_draws (src : DmaSrc) (s : State) : (s.setDmaSrc src).draws = s.draws := rfl

/-! ### respond -/

@[simp] theorem State.respond_params (r : Response) (s : State) : (s.respond r).params = s.params := rfl
@[simp] theorem State.respond_loaded (r : Response) (s : State) : (s.respond r).loaded = s.loaded := rfl
@[simp] theorem State.respond_running (r : Response) (s : State) : (s.respond r).running = s.running := rfl
@[simp] theorem State.respond_geo (r : Response) (s : State) : (s.respond r).geo = s.geo := rfl
@[simp] theorem State.respond_arena (r : Response) (s : State) : (s.respond r).arena = s.arena := rfl
@[simp] theorem State.respond_banks (r : Response) (s : State) : (s.respond r).banks = s.banks := rfl
@[simp] theorem State.respond_table (r : Response) (s : State) : (s.respond r).table = s.table := rfl
@[simp] theorem State.respond_cc (r : Response) (s : State) : (s.respond r).cc = s.cc := rfl
@[simp] theorem State.respond_ds (r : Response) (s : State) : (s.respond r).ds = s.ds := rfl
@[simp] theorem State.respond_time (r : Response) (s : State) : (s.respond r).time = s.time := rfl
@[simp] theorem State.respond_irq (r : Response) (s : State) : (s.respond r).irq = s.irq := rfl
@[simp] theorem State.respond_frameDone (r : Response) (s : State) : (s.respond r).frameDone = s.frameDone := rfl
@[simp] theorem State.respond_lyc (r : Response) (s : State) : (s.respond r).lyc = s.lyc := rfl
@[simp] theorem State.respond_timer (r : Response) (s : State) : (s.respond r).timer = s.timer := rfl
@[simp] theorem State.respond_serial (r : Response) (s : State) : (s.respond r).serial = s.serial := rfl
@[simp] theorem State.respond_dma (r : Response) (s : State) : (s.respond r).dma = s.dma := rfl
@[simp] theorem State.respond_faulted (r : Response) (s : State) : (s.respond r).faulted = s.faulted := rfl
@[simp] theorem State.respond_inputs (r : Response) (s : State) : (s.respond r).inputs = s.inputs := rfl
@[simp] theorem State.respond_outputs (r : Response) (s : State) : (s.respond r).outputs = { s.outputs with rsp := r } := rfl
@[simp] theorem State.respond_commands (r : Response) (s : State) : (s.respond r).commands = s.commands := rfl
@[simp] theorem State.respond_draws (r : Response) (s : State) : (s.respond r).draws = s.draws := rfl

/-! ### emitCart -/

@[simp] theorem State.emitCart_params (a : Addr) (v : Byte) (c : Cycle) (s : State) : (s.emitCart a v c).params = s.params := rfl
@[simp] theorem State.emitCart_loaded (a : Addr) (v : Byte) (c : Cycle) (s : State) : (s.emitCart a v c).loaded = s.loaded := rfl
@[simp] theorem State.emitCart_running (a : Addr) (v : Byte) (c : Cycle) (s : State) : (s.emitCart a v c).running = s.running := rfl
@[simp] theorem State.emitCart_geo (a : Addr) (v : Byte) (c : Cycle) (s : State) : (s.emitCart a v c).geo = s.geo := rfl
@[simp] theorem State.emitCart_arena (a : Addr) (v : Byte) (c : Cycle) (s : State) : (s.emitCart a v c).arena = s.arena := rfl
@[simp] theorem State.emitCart_banks (a : Addr) (v : Byte) (c : Cycle) (s : State) : (s.emitCart a v c).banks = s.banks := rfl
@[simp] theorem State.emitCart_table (a : Addr) (v : Byte) (c : Cycle) (s : State) : (s.emitCart a v c).table = s.table := rfl
@[simp] theorem State.emitCart_cc (a : Addr) (v : Byte) (c : Cycle) (s : State) : (s.emitCart a v c).cc = s.cc := rfl
@[simp] theorem State.emitCart_ds (a : Addr) (v : Byte) (c : Cycle) (s : State) : (s.emitCart a v c).ds = s.ds := rfl
@[simp] theorem State.emitCart_time (a : Addr) (v : Byte) (c : Cycle) (s : State) : (s.emitCart a v c).time = s.time := rfl
@[simp] theorem State.emitCart_irq (a : Addr) (v : Byte) (c : Cycle) (s : State) : (s.emitCart a v c).irq = s.irq := rfl
@[simp] theorem State.emitCart_frameDone (a : Addr) (v : Byte) (c : Cycle) (s : State) : (s.emitCart a v c).frameDone = s.frameDone := rfl
@[simp] theorem State.emitCart_lyc (a : Addr) (v : Byte) (c : Cycle) (s : State) : (s.emitCart a v c).lyc = s.lyc := rfl
@[simp] theorem State.emitCart_timer (a : Addr) (v : Byte) (c : Cycle) (s : State) : (s.emitCart a v c).timer = s.timer := rfl
@[simp] theorem State.emitCart_serial (a : Addr) (v : Byte) (c : Cycle) (s : State) : (s.emitCart a v c).serial = s.serial := rfl
@[simp] theorem State.emitCart_dma (a : Addr) (v : Byte) (c : Cycle) (s : State) : (s.emitCart a v c).dma = s.dma := rfl
@[simp] theorem State.emitCart_faulted (a : Addr) (v : Byte) (c : Cycle) (s : State) : (s.emitCart a v c).faulted = s.faulted := rfl
@[simp] theorem State.emitCart_inputs (a : Addr) (v : Byte) (c : Cycle) (s : State) : (s.emitCart a v c).inputs = s.inputs := rfl
@[simp] theorem State.emitCart_outputs (a : Addr) (v : Byte) (c : Cycle) (s : State) : (s.emitCart a v c).outputs = { s.outputs with cartCtl := some ⟨a, v, c⟩ } := rfl
@[simp] theorem State.emitCart_commands (a : Addr) (v : Byte) (c : Cycle) (s : State) : (s.emitCart a v c).commands = s.commands := rfl
@[simp] theorem State.emitCart_draws (a : Addr) (v : Byte) (c : Cycle) (s : State) : (s.emitCart a v c).draws = s.draws := rfl

/-! ### emitExt -/

@[simp] theorem State.emitExt_params (p v : Byte) (c : Cycle) (s : State) : (s.emitExt p v c).params = s.params := rfl
@[simp] theorem State.emitExt_loaded (p v : Byte) (c : Cycle) (s : State) : (s.emitExt p v c).loaded = s.loaded := rfl
@[simp] theorem State.emitExt_running (p v : Byte) (c : Cycle) (s : State) : (s.emitExt p v c).running = s.running := rfl
@[simp] theorem State.emitExt_geo (p v : Byte) (c : Cycle) (s : State) : (s.emitExt p v c).geo = s.geo := rfl
@[simp] theorem State.emitExt_arena (p v : Byte) (c : Cycle) (s : State) : (s.emitExt p v c).arena = s.arena := rfl
@[simp] theorem State.emitExt_banks (p v : Byte) (c : Cycle) (s : State) : (s.emitExt p v c).banks = s.banks := rfl
@[simp] theorem State.emitExt_table (p v : Byte) (c : Cycle) (s : State) : (s.emitExt p v c).table = s.table := rfl
@[simp] theorem State.emitExt_cc (p v : Byte) (c : Cycle) (s : State) : (s.emitExt p v c).cc = s.cc := rfl
@[simp] theorem State.emitExt_ds (p v : Byte) (c : Cycle) (s : State) : (s.emitExt p v c).ds = s.ds := rfl
@[simp] theorem State.emitExt_time (p v : Byte) (c : Cycle) (s : State) : (s.emitExt p v c).time = s.time := rfl
@[simp] theorem State.emitExt_irq (p v : Byte) (c : Cycle) (s : State) : (s.emitExt p v c).irq = s.irq := rfl
@[simp] theorem State.emitExt_frameDone (p v : Byte) (c : Cycle) (s : State) : (s.emitExt p v c).frameDone = s.frameDone := rfl
@[simp] theorem State.emitExt_lyc (p v : Byte) (c : Cycle) (s : State) : (s.emitExt p v c).lyc = s.lyc := rfl
@[simp] theorem State.emitExt_timer (p v : Byte) (c : Cycle) (s : State) : (s.emitExt p v c).timer = s.timer := rfl
@[simp] theorem State.emitExt_serial (p v : Byte) (c : Cycle) (s : State) : (s.emitExt p v c).serial = s.serial := rfl
@[simp] theorem State.emitExt_dma (p v : Byte) (c : Cycle) (s : State) : (s.emitExt p v c).dma = s.dma := rfl
@[simp] theorem State.emitExt_faulted (p v : Byte) (c : Cycle) (s : State) : (s.emitExt p v c).faulted = s.faulted := rfl
@[simp] theorem State.emitExt_inputs (p v : Byte) (c : Cycle) (s : State) : (s.emitExt p v c).inputs = s.inputs := rfl
@[simp] theorem State.emitExt_outputs (p v : Byte) (c : Cycle) (s : State) : (s.emitExt p v c).outputs = { s.outputs with extWr := some ⟨p, v, c⟩ } := rfl
@[simp] theorem State.emitExt_commands (p v : Byte) (c : Cycle) (s : State) : (s.emitExt p v c).commands = s.commands := rfl
@[simp] theorem State.emitExt_draws (p v : Byte) (c : Cycle) (s : State) : (s.emitExt p v c).draws = s.draws := rfl

/-! ### clearOutputs -/

@[simp] theorem State.clearOutputs_params (s : State) : (s.clearOutputs).params = s.params := rfl
@[simp] theorem State.clearOutputs_loaded (s : State) : (s.clearOutputs).loaded = s.loaded := rfl
@[simp] theorem State.clearOutputs_running (s : State) : (s.clearOutputs).running = s.running := rfl
@[simp] theorem State.clearOutputs_geo (s : State) : (s.clearOutputs).geo = s.geo := rfl
@[simp] theorem State.clearOutputs_arena (s : State) : (s.clearOutputs).arena = s.arena := rfl
@[simp] theorem State.clearOutputs_banks (s : State) : (s.clearOutputs).banks = s.banks := rfl
@[simp] theorem State.clearOutputs_table (s : State) : (s.clearOutputs).table = s.table := rfl
@[simp] theorem State.clearOutputs_cc (s : State) : (s.clearOutputs).cc = s.cc := rfl
@[simp] theorem State.clearOutputs_ds (s : State) : (s.clearOutputs).ds = s.ds := rfl
@[simp] theorem State.clearOutputs_time (s : State) : (s.clearOutputs).time = s.time := rfl
@[simp] theorem State.clearOutputs_irq (s : State) : (s.clearOutputs).irq = s.irq := rfl
@[simp] theorem State.clearOutputs_frameDone (s : State) : (s.clearOutputs).frameDone = s.frameDone := rfl
@[simp] theorem State.clearOutputs_lyc (s : State) : (s.clearOutputs).lyc = s.lyc := rfl
@[simp] theorem State.clearOutputs_timer (s : State) : (s.clearOutputs).timer = s.timer := rfl
@[simp] theorem State.clearOutputs_serial (s : State) : (s.clearOutputs).serial = s.serial := rfl
@[simp] theorem State.clearOutputs_dma (s : State) : (s.clearOutputs).dma = s.dma := rfl
@[simp] theorem State.clearOutputs_faulted (s : State) : (s.clearOutputs).faulted = s.faulted := rfl
@[simp] theorem State.clearOutputs_inputs (s : State) : (s.clearOutputs).inputs = s.inputs := rfl
@[simp] theorem State.clearOutputs_outputs (s : State) : (s.clearOutputs).outputs = {} := rfl
@[simp] theorem State.clearOutputs_commands (s : State) : (s.clearOutputs).commands = s.commands := rfl
@[simp] theorem State.clearOutputs_draws (s : State) : (s.clearOutputs).draws = s.draws := rfl

/-! ### raise -/

@[simp] theorem State.raise_params (p : Packet) (id : FaultId) (info : FaultInfo) (s : State) : (s.raise p id info).params = s.params := rfl
@[simp] theorem State.raise_loaded (p : Packet) (id : FaultId) (info : FaultInfo) (s : State) : (s.raise p id info).loaded = s.loaded := rfl
@[simp] theorem State.raise_running (p : Packet) (id : FaultId) (info : FaultInfo) (s : State) : (s.raise p id info).running = s.running := rfl
@[simp] theorem State.raise_geo (p : Packet) (id : FaultId) (info : FaultInfo) (s : State) : (s.raise p id info).geo = s.geo := rfl
@[simp] theorem State.raise_arena (p : Packet) (id : FaultId) (info : FaultInfo) (s : State) : (s.raise p id info).arena = s.arena := rfl
@[simp] theorem State.raise_banks (p : Packet) (id : FaultId) (info : FaultInfo) (s : State) : (s.raise p id info).banks = s.banks := rfl
@[simp] theorem State.raise_table (p : Packet) (id : FaultId) (info : FaultInfo) (s : State) : (s.raise p id info).table = s.table := rfl
@[simp] theorem State.raise_cc (p : Packet) (id : FaultId) (info : FaultInfo) (s : State) : (s.raise p id info).cc = s.cc := rfl
@[simp] theorem State.raise_ds (p : Packet) (id : FaultId) (info : FaultInfo) (s : State) : (s.raise p id info).ds = s.ds := rfl
@[simp] theorem State.raise_time (p : Packet) (id : FaultId) (info : FaultInfo) (s : State) : (s.raise p id info).time = s.time := rfl
@[simp] theorem State.raise_irq (p : Packet) (id : FaultId) (info : FaultInfo) (s : State) : (s.raise p id info).irq = s.irq := rfl
@[simp] theorem State.raise_frameDone (p : Packet) (id : FaultId) (info : FaultInfo) (s : State) : (s.raise p id info).frameDone = s.frameDone := rfl
@[simp] theorem State.raise_lyc (p : Packet) (id : FaultId) (info : FaultInfo) (s : State) : (s.raise p id info).lyc = s.lyc := rfl
@[simp] theorem State.raise_timer (p : Packet) (id : FaultId) (info : FaultInfo) (s : State) : (s.raise p id info).timer = s.timer := rfl
@[simp] theorem State.raise_serial (p : Packet) (id : FaultId) (info : FaultInfo) (s : State) : (s.raise p id info).serial = s.serial := rfl
@[simp] theorem State.raise_dma (p : Packet) (id : FaultId) (info : FaultInfo) (s : State) : (s.raise p id info).dma = s.dma := rfl
@[simp] theorem State.raise_faulted (p : Packet) (id : FaultId) (info : FaultInfo) (s : State) : (s.raise p id info).faulted = some ⟨id, info, p⟩ := rfl
@[simp] theorem State.raise_inputs (p : Packet) (id : FaultId) (info : FaultInfo) (s : State) : (s.raise p id info).inputs = s.inputs := rfl
@[simp] theorem State.raise_outputs (p : Packet) (id : FaultId) (info : FaultInfo) (s : State) : (s.raise p id info).outputs = {} := rfl
@[simp] theorem State.raise_commands (p : Packet) (id : FaultId) (info : FaultInfo) (s : State) : (s.raise p id info).commands = s.commands := rfl
@[simp] theorem State.raise_draws (p : Packet) (id : FaultId) (info : FaultInfo) (s : State) : (s.raise p id info).draws = s.draws := rfl

/-! ### refuse -/

@[simp] theorem State.refuse_params (s : State) : (s.refuse).params = s.params := rfl
@[simp] theorem State.refuse_loaded (s : State) : (s.refuse).loaded = s.loaded := rfl
@[simp] theorem State.refuse_running (s : State) : (s.refuse).running = s.running := rfl
@[simp] theorem State.refuse_geo (s : State) : (s.refuse).geo = s.geo := rfl
@[simp] theorem State.refuse_arena (s : State) : (s.refuse).arena = s.arena := rfl
@[simp] theorem State.refuse_banks (s : State) : (s.refuse).banks = s.banks := rfl
@[simp] theorem State.refuse_table (s : State) : (s.refuse).table = s.table := rfl
@[simp] theorem State.refuse_cc (s : State) : (s.refuse).cc = s.cc := rfl
@[simp] theorem State.refuse_ds (s : State) : (s.refuse).ds = s.ds := rfl
@[simp] theorem State.refuse_time (s : State) : (s.refuse).time = s.time := rfl
@[simp] theorem State.refuse_irq (s : State) : (s.refuse).irq = s.irq := rfl
@[simp] theorem State.refuse_frameDone (s : State) : (s.refuse).frameDone = s.frameDone := rfl
@[simp] theorem State.refuse_lyc (s : State) : (s.refuse).lyc = s.lyc := rfl
@[simp] theorem State.refuse_timer (s : State) : (s.refuse).timer = s.timer := rfl
@[simp] theorem State.refuse_serial (s : State) : (s.refuse).serial = s.serial := rfl
@[simp] theorem State.refuse_dma (s : State) : (s.refuse).dma = s.dma := rfl
@[simp] theorem State.refuse_faulted (s : State) : (s.refuse).faulted = s.faulted := rfl
@[simp] theorem State.refuse_inputs (s : State) : (s.refuse).inputs = s.inputs := rfl
@[simp] theorem State.refuse_outputs (s : State) : (s.refuse).outputs = { rsp := .refused } := rfl
@[simp] theorem State.refuse_commands (s : State) : (s.refuse).commands = s.commands := rfl
@[simp] theorem State.refuse_draws (s : State) : (s.refuse).draws = s.draws := rfl

/-! ### drawByte -/

@[simp] theorem State.drawByte_params (s : State) : (s.drawByte.2).params = s.params := rfl
@[simp] theorem State.drawByte_loaded (s : State) : (s.drawByte.2).loaded = s.loaded := rfl
@[simp] theorem State.drawByte_running (s : State) : (s.drawByte.2).running = s.running := rfl
@[simp] theorem State.drawByte_geo (s : State) : (s.drawByte.2).geo = s.geo := rfl
@[simp] theorem State.drawByte_arena (s : State) : (s.drawByte.2).arena = s.arena := rfl
@[simp] theorem State.drawByte_banks (s : State) : (s.drawByte.2).banks = s.banks := rfl
@[simp] theorem State.drawByte_table (s : State) : (s.drawByte.2).table = s.table := rfl
@[simp] theorem State.drawByte_cc (s : State) : (s.drawByte.2).cc = s.cc := rfl
@[simp] theorem State.drawByte_ds (s : State) : (s.drawByte.2).ds = s.ds := rfl
@[simp] theorem State.drawByte_time (s : State) : (s.drawByte.2).time = s.time := rfl
@[simp] theorem State.drawByte_irq (s : State) : (s.drawByte.2).irq = s.irq := rfl
@[simp] theorem State.drawByte_frameDone (s : State) : (s.drawByte.2).frameDone = s.frameDone := rfl
@[simp] theorem State.drawByte_lyc (s : State) : (s.drawByte.2).lyc = s.lyc := rfl
@[simp] theorem State.drawByte_timer (s : State) : (s.drawByte.2).timer = s.timer := rfl
@[simp] theorem State.drawByte_serial (s : State) : (s.drawByte.2).serial = s.serial := rfl
@[simp] theorem State.drawByte_dma (s : State) : (s.drawByte.2).dma = s.dma := rfl
@[simp] theorem State.drawByte_faulted (s : State) : (s.drawByte.2).faulted = s.faulted := rfl
@[simp] theorem State.drawByte_inputs (s : State) : (s.drawByte.2).inputs = s.inputs := rfl
@[simp] theorem State.drawByte_outputs (s : State) : (s.drawByte.2).outputs = s.outputs := rfl
@[simp] theorem State.drawByte_commands (s : State) : (s.drawByte.2).commands = s.commands := rfl
@[simp] theorem State.drawByte_draws (s : State) : (s.drawByte.2).draws = s.draws + 1 := rfl

/-! ### drawBool -/

@[simp] theorem State.drawBool_params (s : State) : (s.drawBool.2).params = s.params := rfl
@[simp] theorem State.drawBool_loaded (s : State) : (s.drawBool.2).loaded = s.loaded := rfl
@[simp] theorem State.drawBool_running (s : State) : (s.drawBool.2).running = s.running := rfl
@[simp] theorem State.drawBool_geo (s : State) : (s.drawBool.2).geo = s.geo := rfl
@[simp] theorem State.drawBool_arena (s : State) : (s.drawBool.2).arena = s.arena := rfl
@[simp] theorem State.drawBool_banks (s : State) : (s.drawBool.2).banks = s.banks := rfl
@[simp] theorem State.drawBool_table (s : State) : (s.drawBool.2).table = s.table := rfl
@[simp] theorem State.drawBool_cc (s : State) : (s.drawBool.2).cc = s.cc := rfl
@[simp] theorem State.drawBool_ds (s : State) : (s.drawBool.2).ds = s.ds := rfl
@[simp] theorem State.drawBool_time (s : State) : (s.drawBool.2).time = s.time := rfl
@[simp] theorem State.drawBool_irq (s : State) : (s.drawBool.2).irq = s.irq := rfl
@[simp] theorem State.drawBool_frameDone (s : State) : (s.drawBool.2).frameDone = s.frameDone := rfl
@[simp] theorem State.drawBool_lyc (s : State) : (s.drawBool.2).lyc = s.lyc := rfl
@[simp] theorem State.drawBool_timer (s : State) : (s.drawBool.2).timer = s.timer := rfl
@[simp] theorem State.drawBool_serial (s : State) : (s.drawBool.2).serial = s.serial := rfl
@[simp] theorem State.drawBool_dma (s : State) : (s.drawBool.2).dma = s.dma := rfl
@[simp] theorem State.drawBool_faulted (s : State) : (s.drawBool.2).faulted = s.faulted := rfl
@[simp] theorem State.drawBool_inputs (s : State) : (s.drawBool.2).inputs = s.inputs := rfl
@[simp] theorem State.drawBool_outputs (s : State) : (s.drawBool.2).outputs = s.outputs := rfl
@[simp] theorem State.drawBool_commands (s : State) : (s.drawBool.2).commands = s.commands := rfl
@[simp] theorem State.drawBool_draws (s : State) : (s.drawBool.2).draws = s.draws + 1 := rfl

/-! ### drawUnder -/

@[simp] theorem State.drawUnder_params (m k : Byte) (s : State) : ((s.drawUnder m k).2).params = s.params := rfl
@[simp] theorem State.drawUnder_loaded (m k : Byte) (s : State) : ((s.drawUnder m k).2).loaded = s.loaded := rfl
@[simp] theorem State.drawUnder_running (m k : Byte) (s : State) : ((s.drawUnder m k).2).running = s.running := rfl
@[simp] theorem State.drawUnder_geo (m k : Byte) (s : State) : ((s.drawUnder m k).2).geo = s.geo := rfl
@[simp] theorem State.drawUnder_arena (m k : Byte) (s : State) : ((s.drawUnder m k).2).arena = s.arena := rfl
@[simp] theorem State.drawUnder_banks (m k : Byte) (s : State) : ((s.drawUnder m k).2).banks = s.banks := rfl
@[simp] theorem State.drawUnder_table (m k : Byte) (s : State) : ((s.drawUnder m k).2).table = s.table := rfl
@[simp] theorem State.drawUnder_cc (m k : Byte) (s : State) : ((s.drawUnder m k).2).cc = s.cc := rfl
@[simp] theorem State.drawUnder_ds (m k : Byte) (s : State) : ((s.drawUnder m k).2).ds = s.ds := rfl
@[simp] theorem State.drawUnder_time (m k : Byte) (s : State) : ((s.drawUnder m k).2).time = s.time := rfl
@[simp] theorem State.drawUnder_irq (m k : Byte) (s : State) : ((s.drawUnder m k).2).irq = s.irq := rfl
@[simp] theorem State.drawUnder_frameDone (m k : Byte) (s : State) : ((s.drawUnder m k).2).frameDone = s.frameDone := rfl
@[simp] theorem State.drawUnder_lyc (m k : Byte) (s : State) : ((s.drawUnder m k).2).lyc = s.lyc := rfl
@[simp] theorem State.drawUnder_timer (m k : Byte) (s : State) : ((s.drawUnder m k).2).timer = s.timer := rfl
@[simp] theorem State.drawUnder_serial (m k : Byte) (s : State) : ((s.drawUnder m k).2).serial = s.serial := rfl
@[simp] theorem State.drawUnder_dma (m k : Byte) (s : State) : ((s.drawUnder m k).2).dma = s.dma := rfl
@[simp] theorem State.drawUnder_faulted (m k : Byte) (s : State) : ((s.drawUnder m k).2).faulted = s.faulted := rfl
@[simp] theorem State.drawUnder_inputs (m k : Byte) (s : State) : ((s.drawUnder m k).2).inputs = s.inputs := rfl
@[simp] theorem State.drawUnder_outputs (m k : Byte) (s : State) : ((s.drawUnder m k).2).outputs = s.outputs := rfl
@[simp] theorem State.drawUnder_commands (m k : Byte) (s : State) : ((s.drawUnder m k).2).commands = s.commands := rfl
@[simp] theorem State.drawUnder_draws (m k : Byte) (s : State) : ((s.drawUnder m k).2).draws = s.draws + 1 := rfl

/-- Setting a unit's trigger time sets that one and no other. -/
@[simp] theorem State.setTime_time_get (u u' : SchedUnit) (v : Cycle) (s : State) :
    (s.setTime u v).time.get u' = if u' = u then v else s.time.get u' := by
  cases u <;> cases u' <;> rfl

@[simp] theorem State.setTime_blit_time_blit (v : Cycle) (s : State) : (s.setTime .blit v).time.blit = v := rfl
@[simp] theorem State.setTime_blit_time_serial (v : Cycle) (s : State) : (s.setTime .blit v).time.serial = s.time.serial := rfl
@[simp] theorem State.setTime_blit_time_oamDma (v : Cycle) (s : State) : (s.setTime .blit v).time.oamDma = s.time.oamDma := rfl
@[simp] theorem State.setTime_blit_time_tima (v : Cycle) (s : State) : (s.setTime .blit v).time.tima = s.time.tima := rfl
@[simp] theorem State.setTime_blit_time_lyc (v : Cycle) (s : State) : (s.setTime .blit v).time.lyc = s.time.lyc := rfl
@[simp] theorem State.setTime_serial_time_blit (v : Cycle) (s : State) : (s.setTime .serial v).time.blit = s.time.blit := rfl
@[simp] theorem State.setTime_serial_time_serial (v : Cycle) (s : State) : (s.setTime .serial v).time.serial = v := rfl
@[simp] theorem State.setTime_serial_time_oamDma (v : Cycle) (s : State) : (s.setTime .serial v).time.oamDma = s.time.oamDma := rfl
@[simp] theorem State.setTime_serial_time_tima (v : Cycle) (s : State) : (s.setTime .serial v).time.tima = s.time.tima := rfl
@[simp] theorem State.setTime_serial_time_lyc (v : Cycle) (s : State) : (s.setTime .serial v).time.lyc = s.time.lyc := rfl
@[simp] theorem State.setTime_oamDma_time_blit (v : Cycle) (s : State) : (s.setTime .oamDma v).time.blit = s.time.blit := rfl
@[simp] theorem State.setTime_oamDma_time_serial (v : Cycle) (s : State) : (s.setTime .oamDma v).time.serial = s.time.serial := rfl
@[simp] theorem State.setTime_oamDma_time_oamDma (v : Cycle) (s : State) : (s.setTime .oamDma v).time.oamDma = v := rfl
@[simp] theorem State.setTime_oamDma_time_tima (v : Cycle) (s : State) : (s.setTime .oamDma v).time.tima = s.time.tima := rfl
@[simp] theorem State.setTime_oamDma_time_lyc (v : Cycle) (s : State) : (s.setTime .oamDma v).time.lyc = s.time.lyc := rfl
@[simp] theorem State.setTime_tima_time_blit (v : Cycle) (s : State) : (s.setTime .tima v).time.blit = s.time.blit := rfl
@[simp] theorem State.setTime_tima_time_serial (v : Cycle) (s : State) : (s.setTime .tima v).time.serial = s.time.serial := rfl
@[simp] theorem State.setTime_tima_time_oamDma (v : Cycle) (s : State) : (s.setTime .tima v).time.oamDma = s.time.oamDma := rfl
@[simp] theorem State.setTime_tima_time_tima (v : Cycle) (s : State) : (s.setTime .tima v).time.tima = v := rfl
@[simp] theorem State.setTime_tima_time_lyc (v : Cycle) (s : State) : (s.setTime .tima v).time.lyc = s.time.lyc := rfl
@[simp] theorem State.setTime_lyc_time_blit (v : Cycle) (s : State) : (s.setTime .lyc v).time.blit = s.time.blit := rfl
@[simp] theorem State.setTime_lyc_time_serial (v : Cycle) (s : State) : (s.setTime .lyc v).time.serial = s.time.serial := rfl
@[simp] theorem State.setTime_lyc_time_oamDma (v : Cycle) (s : State) : (s.setTime .lyc v).time.oamDma = s.time.oamDma := rfl
@[simp] theorem State.setTime_lyc_time_tima (v : Cycle) (s : State) : (s.setTime .lyc v).time.tima = s.time.tima := rfl
@[simp] theorem State.setTime_lyc_time_lyc (v : Cycle) (s : State) : (s.setTime .lyc v).time.lyc = v := rfl

end Sys2Proof.Machine
end

