-- ==== Sys2Proof/Laws/Ops.lean ====
section
/-! SUPPORT. What each shared operation of Machine/Ops.lean and Machine/Flags.lean can do, said once: the Backing
Store's read and write, the derived table, `tick`, the checks of a command, the wake rule, the least trigger time. -/

namespace Sys2Proof.Machine

open Sys2Proof

/-! ## Sequencing of a command's body -/

/-- A body that succeeds has a first part that succeeds. -/
theorem Except.bind_ok_inv {ε α β : Type} {x : Except ε α} {f : α → Except ε β} {r : β} (h : x >>= f = .ok r) :
    ∃ a, x = .ok a ∧ f a = .ok r := by
  cases x with
  | error e => simp [bind, Except.bind] at h
  | ok a => exact ⟨a, rfl, h⟩

/-- A body that fails fails in its first part, or in the rest. -/
theorem Except.bind_error_inv {ε α β : Type} {x : Except ε α} {f : α → Except ε β} {e : ε}
    (h : x >>= f = .error e) : x = .error e ∨ ∃ a, x = .ok a ∧ f a = .error e := by
  cases x with
  | error e' => left; simpa [bind, Except.bind] using h
  | ok a => exact .inr ⟨a, rfl, h⟩

@[simp] theorem Except.bind_ok {ε α β : Type} (a : α) (f : α → Except ε β) : (Except.ok a >>= f) = f a := rfl
@[simp] theorem Except.bind_error {ε α β : Type} (e : ε) (f : α → Except ε β) :
    ((Except.error e : Except ε α) >>= f) = .error e := rfl

/-! ## The Backing Store -/

@[simp] theorem Arena.get_set_same (m : Arena) (r : Region) (b : Memory) : (m.set r b).get r = b := by cases r <;> rfl

theorem Arena.get_set_other (m : Arena) {r r' : Region} (b : Memory) (h : r ≠ r') : (m.set r b).get r' = m.get r' := by
  cases r <;> cases r' <;> first | rfl | exact absurd rfl h

/-- The byte a store wrote. -/
@[simp] theorem Arena.byte_store_same (m : Arena) (r : Region) (i : Nat) (v : Byte) : (m.store r i v).byte r i = v := by
  simp [Arena.byte, Arena.store]

/-- A store leaves every other byte alone. -/
theorem Arena.byte_store_other (m : Arena) {r r' : Region} {i j : Nat} (v : Byte) (h : (r, i) ≠ (r', j)) :
    (m.store r i v).byte r' j = m.byte r' j := by
  by_cases hr : r = r'
  · subst hr
    have hij : i ≠ j := fun e => h (by rw [e])
    simp [Arena.byte, Arena.store, Memory.read_write_other _ _ hij]
  · simp [Arena.byte, Arena.store, Arena.get_set_other _ _ hr]

/-- A store and a read, in one equation. -/
theorem Arena.byte_store (m : Arena) (r r' : Region) (i j : Nat) (v : Byte) :
    (m.store r i v).byte r' j = if r = r' ∧ i = j then v else m.byte r' j := by
  split
  · next h => obtain ⟨rfl, rfl⟩ := h; simp
  · next h => exact Arena.byte_store_other m v (by simpa [Prod.ext_iff] using h)

/-- A read inside a region answers its byte. -/
theorem State.readArena_ok {r : Region} {i : Int} {s : State} (h0 : 0 ≤ i) (h1 : i < (r.length s.geo : Int)) :
    s.readArena r i = .ok (s.arena.byte r i.toNat) := by simp [State.readArena, h0, h1]

/-- A write inside a region stores the byte and nothing else. -/
theorem State.writeArena_ok {r : Region} {i : Int} {s : State} (v : Byte) (h0 : 0 ≤ i)
    (h1 : i < (r.length s.geo : Int)) :
    s.writeArena r i v = .ok { s with arena := s.arena.store r i.toNat v } := by simp [State.writeArena, h0, h1]

/-- What a read that answers can have been. -/
theorem State.readArena_inv {r : Region} {i : Int} {s : State} {v : Byte} (h : s.readArena r i = .ok v) :
    0 ≤ i ∧ i < (r.length s.geo : Int) ∧ v = s.arena.byte r i.toNat := by
  unfold State.readArena at h
  split at h
  · next hc => exact ⟨hc.1, hc.2, by simpa using h.symm⟩
  · simp at h

/-- What a write that answers can have been. -/
theorem State.writeArena_inv {r : Region} {i : Int} {v : Byte} {s t : State} (h : s.writeArena r i v = .ok t) :
    0 ≤ i ∧ i < (r.length s.geo : Int) ∧ t = { s with arena := s.arena.store r i.toNat v } := by
  unfold State.writeArena at h
  split at h
  · next hc => exact ⟨hc.1, hc.2, by simpa using h.symm⟩
  · simp at h

/-- The only way a read or a write ends early is the bound check. -/
theorem State.readArena_error {r : Region} {i : Int} {s : State} {e : Abort} (h : s.readArena r i = .error e) :
    ¬(0 ≤ i ∧ i < (r.length s.geo : Int)) ∧ e = .stop (.arenaBounds r i) := by
  unfold State.readArena at h
  split at h
  · simp at h
  · next hc => exact ⟨hc, by simpa using h.symm⟩

theorem State.writeArena_error {r : Region} {i : Int} {v : Byte} {s : State} {e : Abort}
    (h : s.writeArena r i v = .error e) : ¬(0 ≤ i ∧ i < (r.length s.geo : Int)) ∧ e = .stop (.arenaBounds r i) := by
  unfold State.writeArena at h
  split at h
  · simp at h
  · next hc => exact ⟨hc, by simpa using h.symm⟩

/-- A contended write inside a region: one free bit is used, and the byte is the new one or the old one. -/
theorem State.writeArenaMaybe_ok {r : Region} {i : Int} {s : State} (v : Byte) (h0 : 0 ≤ i)
    (h1 : i < (r.length s.geo : Int)) :
    s.writeArenaMaybe r i v = .ok { s with
      draws := s.draws + 1
      arena := s.arena.store r i.toNat (if Config.freeBool s.draws then v else s.arena.byte r i.toNat) } := by
  simp [State.writeArenaMaybe, State.readArena, State.writeArena, State.drawBool, h0, h1]
  rfl

/-- What a contended write that answers can have been. -/
theorem State.writeArenaMaybe_inv {r : Region} {i : Int} {v : Byte} {s t : State}
    (h : s.writeArenaMaybe r i v = .ok t) : 0 ≤ i ∧ i < (r.length s.geo : Int) ∧ t = { s with
      draws := s.draws + 1
      arena := s.arena.store r i.toNat (if Config.freeBool s.draws then v else s.arena.byte r i.toNat) } := by
  by_cases hc : 0 ≤ i ∧ i < (r.length s.geo : Int)
  · rw [State.writeArenaMaybe_ok v hc.1 hc.2] at h
    exact ⟨hc.1, hc.2, (Except.ok.inj h).symm⟩
  · simp [State.writeArenaMaybe, State.readArena, hc] at h

/-! ## The canonical form (log 6) -/

/-- A store keeps every region in canonical form. -/
theorem Arena.store_wf {m : Arena} {g : Geometry} {r : Region} {i : Nat} (v : Byte) (hi : i < r.length g)
    (h : ∀ r : Region, Memory.wf r.fill (r.length g) (m.get r) = true) (r' : Region) :
    Memory.wf r'.fill (r'.length g) ((m.store r i v).get r') = true := by
  by_cases hr : r = r'
  · subst hr; simpa [Arena.store] using Memory.write_wf v hi (h r)
  · simpa [Arena.store, Arena.get_set_other _ _ hr] using h r'

/-- A write through the bound check keeps every region in canonical form. -/
theorem State.writeArena_wf {r : Region} {i : Int} {v : Byte} {s t : State} (h : s.writeArena r i v = .ok t)
    (hs : ∀ r : Region, Memory.wf r.fill (r.length s.geo) (s.arena.get r) = true) (r' : Region) :
    Memory.wf r'.fill (r'.length t.geo) (t.arena.get r') = true := by
  obtain ⟨h0, h1, rfl⟩ := State.writeArena_inv h
  exact Arena.store_wf v (by omega) hs r'

/-- A contended write keeps every region in canonical form. -/
theorem State.writeArenaMaybe_wf {r : Region} {i : Int} {v : Byte} {s t : State}
    (h : s.writeArenaMaybe r i v = .ok t)
    (hs : ∀ r : Region, Memory.wf r.fill (r.length s.geo) (s.arena.get r) = true) (r' : Region) :
    Memory.wf r'.fill (r'.length t.geo) (t.arena.get r') = true := by
  obtain ⟨h0, h1, rfl⟩ := State.writeArenaMaybe_inv h
  exact Arena.store_wf _ (by omega) hs r'

/-! ## The window table (20_memory.md R75) -/

/-- Deriving again changes nothing. -/
@[simp] theorem State.derive_derive (s : State) : s.derive.derive = s.derive := rfl

theorem nibble_lt (a : Addr) : nibble a < 16 := by
  have := (a.extractLsb' 12 4).isLt
  simpa [nibble] using this

theorem nibble_eq (a : Addr) : nibble a = a.toNat / 0x1000 := by
  have h := a.isLt
  simp only [nibble, BitVec.extractLsb'_toNat, Nat.shiftRight_eq_div_pow]
  omega

/-- The read entry an address consults in the derived table. -/
theorem deriveTable_rmem (p : Params) (g : Geometry) (b : Banks) (a : Addr) :
    (deriveTable p g b).rmem.getD (nibble a) .slow = deriveRAt p g b (nibble a) := by
  simp [deriveTable, List.getD, List.getElem?_range (nibble_lt a)]

/-- The write entry an address consults in the derived table. -/
theorem deriveTable_wmem (p : Params) (g : Geometry) (b : Banks) (a : Addr) :
    (deriveTable p g b).wmem.getD (nibble a) .slow = deriveWAt p g b (nibble a) := by
  simp [deriveTable, List.getD, List.getElem?_range (nibble_lt a)]

/-- The read entry of a state whose table is the derived one. -/
theorem State.readEntry_of_derived {s : State} (h : s.table = deriveTable s.params s.geo s.banks) (a : Addr) :
    s.readEntry a = deriveRAt s.params s.geo s.banks (nibble a) := by
  simp only [State.readEntry, h, deriveTable_rmem]

/-- The write entry of a state whose table is the derived one. -/
theorem State.writeEntry_of_derived {s : State} (h : s.table = deriveTable s.params s.geo s.banks) (a : Addr) :
    s.writeEntry a = deriveWAt s.params s.geo s.banks (nibble a) := by
  simp only [State.writeEntry, h, deriveTable_wmem]

/-- Recording the DMA source leaves a derived table. -/
@[simp] theorem State.setDmaSrc_table_eq (d : DmaSrc) (s : State) :
    (s.setDmaSrc d).table = deriveTable (s.setDmaSrc d).params (s.setDmaSrc d).geo (s.setDmaSrc d).banks := rfl

/-- With no DMA active nothing is blocked (20_memory.md R72). -/
theorem blocked_off (p : Params) (g : Geometry) :
    blockedRom p g .off = false ∧ blockedSram p g .off = false ∧ blockedWram p g .off = false := ⟨rfl, rfl, rfl⟩

/-! ## tick (42_scheduler.md R200) -/

/-- `tick` on a cycle that passes its check. -/
theorem State.tick_ok {c : Cycle} {s : State} (h : s.cc ≤ c) (hl : c.toNat < s.params.rebaseLimit) :
    s.tick c = .ok { s with cc := c } := by
  have h1 : ¬(c < s.cc ∨ s.params.rebaseLimit ≤ c.toNat) := by
    rw [BitVec.le_def] at h; rw [BitVec.lt_def]; omega
  simp [State.tick, h1]

/-- `tick` on a cycle that fails its check. -/
theorem State.tick_bad {c : Cycle} {s : State} (h : ¬(s.cc ≤ c ∧ c.toNat < s.params.rebaseLimit)) :
    s.tick c = .error (.raise .contract (.cycle c)) := by
  have h1 : c < s.cc ∨ s.params.rebaseLimit ≤ c.toNat := by
    rw [BitVec.le_def] at h; rw [BitVec.lt_def]; omega
  simp [State.tick, h1]

/-- What a `tick` that succeeds can have been. -/
theorem State.tick_inv {c : Cycle} {s t : State} (h : s.tick c = .ok t) :
    s.cc ≤ c ∧ c.toNat < s.params.rebaseLimit ∧ t = { s with cc := c } := by
  by_cases hc : s.cc ≤ c ∧ c.toNat < s.params.rebaseLimit
  · rw [State.tick_ok hc.1 hc.2] at h
    exact ⟨hc.1, hc.2, (Except.ok.inj h).symm⟩
  · simp [State.tick_bad hc] at h

/-- What a `tick` that fails raises. -/
theorem State.tick_error {c : Cycle} {s : State} {e : Abort} (h : s.tick c = .error e) :
    e = .raise .contract (.cycle c) := by
  by_cases hc : s.cc ≤ c ∧ c.toNat < s.params.rebaseLimit
  · simp [State.tick_ok hc.1 hc.2] at h
  · simpa [State.tick_bad hc] using h.symm

/-- What a check of the LY view that succeeds can have been. -/
theorem State.checkLyView_inv {c : Cycle} {s t : State} (h : s.checkLyView c = .ok t) :
    lyViewOk s c = true ∧ t = s := by
  unfold State.checkLyView at h
  split at h
  · next hv => exact ⟨hv, by simpa using h.symm⟩
  · simp at h

theorem State.checkLyView_ok {c : Cycle} {s : State} (h : lyViewOk s c = true) : s.checkLyView c = .ok s := by
  simp [State.checkLyView, h]

/-! ## The checks of a command (60_exceptions.md R300, R301) -/

/-- A command after a fault is refused. -/
theorem runCommand_faulted {p : Packet} {g : Gate} {body : State → Except Abort State} {s : State}
    (h : s.faulted ≠ none) : runCommand p g body s = .next s.refuse := by
  simp [runCommand, Option.isSome_iff_ne_none.mpr h]

/-- A command whose lifecycle check fails raises F_NO_CART. -/
theorem runCommand_noCart {p : Packet} {g : Gate} {body : State → Except Abort State} {s : State}
    (h : s.faulted = none) (hg : g.passes s = false) : runCommand p g body s = .next (s.raise p .noCart .none) := by
  simp [runCommand, h, hg]

/-- A command that passes its lifecycle check runs its body. -/
theorem runCommand_passes {p : Packet} {g : Gate} {body : State → Except Abort State} {s : State}
    (h : s.faulted = none) (hg : g.passes s = true) :
    runCommand p g body s = settle p s (body s.clearOutputs) := by
  simp [runCommand, h, hg]

/-- A command that passes its lifecycle check and whose body succeeds. -/
theorem runCommand_ok {p : Packet} {g : Gate} {body : State → Except Abort State} {s t : State}
    (h : s.faulted = none) (hg : g.passes s = true) (hb : body s.clearOutputs = .ok t) :
    runCommand p g body s = .next t := by
  rw [runCommand_passes h hg, hb]; rfl

/-- A command that passes its lifecycle check and whose body raises. -/
theorem runCommand_raise {p : Packet} {g : Gate} {body : State → Except Abort State} {s : State} {id : FaultId}
    {info : FaultInfo} (h : s.faulted = none) (hg : g.passes s = true)
    (hb : body s.clearOutputs = .error (.raise id info)) : runCommand p g body s = .next (s.raise p id info) := by
  rw [runCommand_passes h hg, hb]; rfl

/-- Everything a command can come to that answers a next state: refused, a raise that changed nothing, or the state of
its body. -/
theorem runCommand_next {p : Packet} {g : Gate} {body : State → Except Abort State} {s t : State}
    (h : runCommand p g body s = .next t) :
    (s.faulted ≠ none ∧ t = s.refuse) ∨ (s.faulted = none ∧ ∃ id info, t = s.raise p id info) ∨
    (s.faulted = none ∧ g.passes s = true ∧ body s.clearOutputs = .ok t) := by
  by_cases hf : s.faulted = none
  · by_cases hg : g.passes s = true
    · rw [runCommand_passes hf hg] at h
      cases hb : body s.clearOutputs with
      | ok u => right; right; rw [hb] at h; exact ⟨hf, hg, by rw [Host.Outcome.next.inj h]⟩
      | error e =>
        rw [hb] at h
        cases e with
        | raise id info => right; left; exact ⟨hf, id, info, (Host.Outcome.next.inj h).symm⟩
        | stop f => simp [settle] at h
    · simp only [Bool.not_eq_true] at hg
      rw [runCommand_noCart hf hg] at h
      right; left; exact ⟨hf, _, _, (Host.Outcome.next.inj h).symm⟩
  · rw [runCommand_faulted hf] at h
    left; exact ⟨hf, (Host.Outcome.next.inj h).symm⟩

/-- A command stops only where its body's bound check does. -/
theorem runCommand_fault {p : Packet} {g : Gate} {body : State → Except Abort State} {s : State} {f : Fault}
    (h : runCommand p g body s = .fault f) :
    s.faulted = none ∧ g.passes s = true ∧ body s.clearOutputs = .error (.stop f) := by
  by_cases hf : s.faulted = none
  · by_cases hg : g.passes s = true
    · rw [runCommand_passes hf hg] at h
      cases hb : body s.clearOutputs with
      | ok u => simp [hb, settle] at h
      | error e =>
        rw [hb] at h
        cases e with
        | raise id info => simp [settle] at h
        | stop f' => simp only [settle, Host.Outcome.fault.injEq] at h; subst h; exact ⟨hf, hg, rfl⟩
    · simp only [Bool.not_eq_true] at hg
      simp [runCommand_noCart hf hg] at h
  · simp [runCommand_faulted hf] at h

/-- No command is refused by the model. -/
theorem runCommand_not_refused {p : Packet} {g : Gate} {body : State → Except Abort State} {s : State} {r : Refusal} :
    runCommand p g body s ≠ .refused r := by
  intro h
  by_cases hf : s.faulted = none
  · by_cases hg : g.passes s = true
    · rw [runCommand_passes hf hg] at h
      cases hb : body s.clearOutputs with
      | ok u => simp [hb, settle] at h
      | error e => cases e <;> simp [hb, settle] at h
    · simp only [Bool.not_eq_true] at hg
      simp [runCommand_noCart hf hg] at h
  · simp [runCommand_faulted hf] at h

/-! ## The wake rule (43_irq_halt.md R266) -/

/-- The wake rule changes `halted` only. -/
theorem wakeIrq_eq (q : Irq) : wakeIrq q = { q with halted := q.halted && pend q == 0 } := by
  unfold wakeIrq
  cases hh : q.halted <;> by_cases hp : pend q = 0 <;> simp [hp] <;> (cases q; simp_all)

@[simp] theorem wakeIrq_IF (q : Irq) : (wakeIrq q).IF = q.IF := by rw [wakeIrq_eq]
@[simp] theorem wakeIrq_IE (q : Irq) : (wakeIrq q).IE = q.IE := by rw [wakeIrq_eq]
@[simp] theorem wakeIrq_ime (q : Irq) : (wakeIrq q).ime = q.ime := by rw [wakeIrq_eq]
@[simp] theorem wakeIrq_eiCycle (q : Irq) : (wakeIrq q).eiCycle = q.eiCycle := by rw [wakeIrq_eq]
@[simp] theorem wakeIrq_halted (q : Irq) : (wakeIrq q).halted = (q.halted && pend q == 0) := by rw [wakeIrq_eq]
@[simp] theorem pend_wakeIrq (q : Irq) : pend (wakeIrq q) = pend q := by simp [pend]

/-- After the wake rule a halted CPU has nothing pending (43_irq_halt.md R267). -/
theorem wakeIrq_quiet (q : Irq) (h : (wakeIrq q).halted = true) : pend (wakeIrq q) = 0 := by
  simp at h; simpa using h.2

/-! ## The least trigger time (42_scheduler.md R203) -/

theorem minCycle_toNat (a b : Cycle) : (minCycle a b).toNat = min a.toNat b.toNat := by
  unfold minCycle
  split
  · next h => rw [BitVec.le_def] at h; omega
  · next h => rw [BitVec.le_def] at h; omega

/-- The least trigger time as a number. -/
theorem minTime_toNat (t : Times) : (minTime t).toNat =
    min t.blit.toNat (min t.serial.toNat (min t.oamDma.toNat (min t.tima.toNat t.lyc.toNat))) := by
  simp [minTime, minCycle_toNat]

/-- No unit triggers before the least trigger time. -/
theorem minTime_le (t : Times) (u : SchedUnit) : (minTime t).toNat ≤ (t.get u).toNat := by
  rw [minTime_toNat]; cases u <;> simp only [Times.get] <;> omega

/-- The next unit triggers at the least trigger time. -/
theorem get_nextUnit (t : Times) : t.get (nextUnit t) = minTime t := by
  unfold nextUnit
  split_ifs with h1 h2 h3 h4
  · exact h1
  · exact h2
  · exact h3
  · exact h4
  · have h := minTime_toNat t
    rw [← BitVec.toNat_inj] at h1 h2 h3 h4 ⊢
    simp only [Times.get]
    omega

@[simp] theorem Times.get_setTime_same (u : SchedUnit) (v : Cycle) (s : State) :
    (s.setTime u v).time.get u = v := by cases u <;> rfl

theorem Times.get_setTime_other {u u' : SchedUnit} (v : Cycle) (s : State) (h : u ≠ u') :
    (s.setTime u v).time.get u' = s.time.get u' := by
  cases u <;> cases u' <;> first | rfl | exact absurd rfl h

/-! ## The register map and the timer's rate (30_encoding.md R108, 42_scheduler.md R223) -/

/-- HRAM lies from 0x80 to 0xFE in both modes. -/
theorem ioReg_hram : ∀ (cgb : Bool) (p : Byte), 0x80 ≤ p.toNat → p ≠ 0xFF → ioReg cgb p = .hram := by decide +kernel

/-- Below 0x80 every offset that is not a core register's is delegated; VBK and SVBK are core registers in CGB mode
only. -/
theorem ioReg_delegated : ∀ (cgb : Bool) (p : Byte), p.toNat < 0x80 →
    p ∉ [0x01, 0x02, 0x04, 0x05, 0x06, 0x07, 0x0F, 0x46] → (p ∈ [0x4F, 0x70] → cgb = false) →
    ioReg cgb p = .delegated := by decide +kernel

/-- The page classes are the nibble ranges of the sources (42_scheduler.md R235). -/
theorem dmaClass_ne_off (v : Byte) : dmaClass v ≠ .off := by
  unfold dmaClass; split_ifs <;> simp

/-- The rate select picks the period by its two low bits. -/
theorem timaPeriod_eq (p : Params) (tac : BitVec 3) : timaPeriod p tac =
    [p.timaPeriod0, p.timaPeriod1, p.timaPeriod2, p.timaPeriod3].getD (tac.toNat % 4) 0 := by
  have h : tac.toNat % 4 < 4 := Nat.mod_lt _ (by decide)
  simp only [timaPeriod, BitVec.extractLsb'_toNat, Nat.shiftRight_zero, Nat.reducePow]
  interval_cases tac.toNat % 4 <;> rfl

@[simp] theorem dsShift_false (x : Nat) : dsShift false x = x := rfl
@[simp] theorem dsShift_true (x : Nat) : dsShift true x = x * 2 := rfl

end Sys2Proof.Machine
end

