-- ==== Sys2Proof/Laws/Exec.lean ====
section
/-! SUPPORT. One equation for all commands: `exec` is the checks of 60_exceptions.md R301 around the command's body; and
what no body changes. Proofs over all commands start here. -/

namespace Sys2Proof.Machine

open Sys2Proof

/-- The body of each command, after the checks of 60_exceptions.md R301 items 1 to 4. -/
def bodyOf : Instr → State → Except Abort State
  | .reset rom ram wram cgb => resetBody rom ram wram cgb
  | .setRombank0 bank => selectRombank0 bank
  | .setRombank bank => selectRombank bank
  | .setRambank bank flags => selectRambank bank flags
  | .setWrambank bank => selectWrambank bank
  | .setVrambank bank => selectVrambank bank
  | .setOamDmaSrc src => match DmaSrc.ofCode src.toNat with
    | none => fun _ => .error (.raise .illegalCmd (.packet (encode (.setOamDmaSrc src))))
    | some d => fun t => .ok (t.setDmaSrc d)
  | .read a c => readBody a c
  | .write a v c => writeBody a v c
  | .ffRead p c => ffReadBody p c
  | .ffWrite p v c => ffWriteBody p v c
  | .event c => eventBody c
  | .nextEventTime => fun s => .ok (s.respond (.word (minTime s.time)))
  | .mreset => mresetBody
  | .setDs ds c => setDsBody ds c
  | .rebase d => rebaseBody d
  | .lycCfg lyc en c => lycCfgBody lyc en c
  | .takeFrame => fun s => .ok (State.respond (.bit s.frameDone) { s with frameDone := false })
  | .halt => fun s => .ok (State.wakeRule { s with irq := { s.irq with halted := true } })
  | .ei c => eiBody c
  | .di => fun s => .ok { s with irq := { s.irq with ime := false } }
  | .ime => fun s => .ok (s.respond (.bit s.irq.ime))
  | .halted => fun s => .ok (s.respond (.bit s.irq.halted))
  | .irqIn m c => irqInBody m c
  | .stateSize => fun s => .ok (s.respond (.word (BitVec.ofNat 32 (stateSize s.geo))))
  | .saveState => fun s => .ok { s with outputs := { s.outputs with rsp := .bit true, buf := some (saveBlob s) } }
  | .loadState => loadBody

/-- The lifecycle checks of each command, where the ill-formed SET_OAMDMASRC has none. -/
def gateOf (i : Instr) : Gate := if i.wellFormed then Gate.ofInstr i else .none

/-- Every command is the checks of 60_exceptions.md R301 around its body. -/
theorem exec_eq (i : Instr) (s : State) : exec i s = runCommand (encode i) (gateOf i) (bodyOf i) s := by
  cases i with
  | setOamDmaSrc src =>
    have h : ∀ x : BitVec 3, x = 0 ∨ x = 1 ∨ x = 2 ∨ x = 3 ∨ x = 4 ∨ x = 5 ∨ x = 6 ∨ x = 7 := by decide
    rcases h src with rfl | rfl | rfl | rfl | rfl | rfl | rfl | rfl <;> rfl
  | _ => rfl

/-- No command is refused by the model. -/
theorem exec_not_refused (i : Instr) (s : State) (r : Refusal) : exec i s ≠ .refused r := by
  rw [exec_eq]; exact runCommand_not_refused

/-- Everything a command can come to that answers a next state. -/
theorem exec_next {i : Instr} {s t : State} (h : exec i s = .next t) :
    (s.faulted ≠ none ∧ t = s.refuse) ∨ (s.faulted = none ∧ ∃ id info, t = s.raise (encode i) id info) ∨
    (s.faulted = none ∧ (gateOf i).passes s = true ∧ bodyOf i s.clearOutputs = .ok t) :=
  runCommand_next (by rw [← exec_eq]; exact h)

/-- A step takes a command: it runs the one its packet decodes to, or raises. -/
theorem step_cons {s : State} {k : Command} {rest : List Command} (h : s.commands = k :: rest) :
    step s = match decode k.packet with
      | .ok i => exec i { s with commands := rest, inputs := k.inputs }
      | .error _ => runIllegal k.packet { s with commands := rest, inputs := k.inputs } := by
  simp only [step, State.takeCommand, h] <;> rfl

/-- Everything a step that answers a next state can have been. -/
theorem step_cases {s t : State} (h : step s = .next t) : ∃ k rest, s.commands = k :: rest ∧
    ((∃ i, decode k.packet = .ok i ∧ exec i { s with commands := rest, inputs := k.inputs } = .next t) ∨
     (∃ e, decode k.packet = .error e ∧ runIllegal k.packet { s with commands := rest, inputs := k.inputs } = .next t))
    := by
  cases hc : s.commands with
  | nil => simp [step, State.takeCommand, hc] at h
  | cons k rest =>
    refine ⟨k, rest, rfl, ?_⟩
    rw [step_cons hc] at h
    cases hd : decode k.packet with
    | ok i => rw [hd] at h; exact .inl ⟨i, rfl, h⟩
    | error e => rw [hd] at h; exact .inr ⟨e, rfl, h⟩

/-! ## A command that is ready to run -/

/-- The state a command's body starts from, once its cycle is recorded. -/
def State.begun (s : State) (c : Cycle) : State := { s with cc := c, outputs := {} }

/-- A ready block runs the body of any command. -/
theorem exec_ready {i : Instr} {s t : State} (h : Ready s) (hb : bodyOf i s.clearOutputs = .ok t) :
    exec i s = .next t := by
  obtain ⟨hf, hl, hr⟩ := h
  rw [exec_eq]
  refine runCommand_ok hf ?_ hb
  cases hg : gateOf i <;> simp [Gate.passes, hl, hr]

/-- A ready block whose command's body raises records the fault and nothing else. -/
theorem exec_ready_raise {i : Instr} {s : State} {id : FaultId} {info : FaultInfo} (h : Ready s)
    (hb : bodyOf i s.clearOutputs = .error (.raise id info)) : exec i s = .next (s.raise (encode i) id info) := by
  obtain ⟨hf, hl, hr⟩ := h
  rw [exec_eq]
  refine runCommand_raise hf ?_ hb
  cases hg : gateOf i <;> simp [Gate.passes, hl, hr]

/-- A command that needs a cartridge only, on a block with one. -/
theorem exec_loaded {i : Instr} {s t : State} (hf : s.faulted = none) (hl : s.loaded = true)
    (hg : gateOf i ≠ .running) (hb : bodyOf i s.clearOutputs = .ok t) : exec i s = .next t := by
  rw [exec_eq]
  refine runCommand_ok hf ?_ hb
  cases h : gateOf i <;> simp_all [Gate.passes]

/-- The same, where the body raises. -/
theorem exec_loaded_raise {i : Instr} {s : State} {id : FaultId} {info : FaultInfo} (hf : s.faulted = none)
    (hl : s.loaded = true) (hg : gateOf i ≠ .running) (hb : bodyOf i s.clearOutputs = .error (.raise id info)) :
    exec i s = .next (s.raise (encode i) id info) := by
  rw [exec_eq]
  refine runCommand_raise hf ?_ hb
  cases h : gateOf i <;> simp_all [Gate.passes]

theorem tick_begun {c : Cycle} {s : State} (hc : CycleOk c s) : s.clearOutputs.tick c = .ok (s.begun c) :=
  State.tick_ok (s := s.clearOutputs) hc.1 hc.2

/-- READ on a ready block. -/
theorem exec_read {a : Addr} {c : Cycle} {s t : State} {v : Byte} (h : Ready s) (hc : CycleOk c s)
    (hb : busRead a c (s.begun c) = .ok (v, t)) : exec (.read a c) s = .next (t.respond (.byte v)) :=
  exec_ready h (by simp only [bodyOf, readBody, tick_begun hc, Except.bind_ok, hb]; rfl)

/-- WRITE on a ready block. -/
theorem exec_write {a : Addr} {v : Byte} {c : Cycle} {s t : State} (h : Ready s) (hc : CycleOk c s)
    (hb : busWrite a v c (s.begun c) = .ok t) : exec (.write a v c) s = .next t :=
  exec_ready h (by simp only [bodyOf, writeBody, tick_begun hc, Except.bind_ok, hb])

/-- FF_READ on a ready block. -/
theorem exec_ffRead {p : Byte} {c : Cycle} {s t : State} {v : Byte} (h : Ready s) (hc : CycleOk c s)
    (hb : ffRead p c (s.begun c) = .ok (v, t)) : exec (.ffRead p c) s = .next (t.respond (.byte v)) :=
  exec_ready h (by simp only [bodyOf, ffReadBody, tick_begun hc, Except.bind_ok, hb]; rfl)

/-- FF_WRITE on a ready block. -/
theorem exec_ffWrite {p v : Byte} {c : Cycle} {s t : State} (h : Ready s) (hc : CycleOk c s)
    (hb : ffWrite p v c (s.begun c) = .ok t) : exec (.ffWrite p v c) s = .next t :=
  exec_ready h (by simp only [bodyOf, ffWriteBody, tick_begun hc, Except.bind_ok, hb])

/-- EVENT on a ready block with a unit due. -/
theorem exec_event_due {c : Cycle} {s t : State} (h : Ready s) (hc : CycleOk c s) (hd : minTime s.time ≤ c)
    (hb : dispatch (nextUnit s.time) (minTime s.time) (s.begun c) = .ok t) :
    exec (.event c) s = .next (t.respond (.word (minTime t.time))) := by
  refine exec_ready h ?_
  have hb' : dispatchDue c (s.begun c) = .ok t := by
    have e : (s.begun c).time = s.time := rfl
    rw [dispatchDue, e, if_pos hd, hb]
  simp only [bodyOf, eventBody, tick_begun hc, Except.bind_ok, hb']
  rfl

/-- EVENT on a ready block with nothing due. -/
theorem exec_event_idle {c : Cycle} {s : State} (h : Ready s) (hc : CycleOk c s) (hd : c < minTime s.time) :
    exec (.event c) s = .next ((s.begun c).respond (.word (minTime s.time))) := by
  refine exec_ready h ?_
  have hb' : dispatchDue c (s.begun c) = .ok (s.begun c) := by
    have e : (s.begun c).time = s.time := rfl
    rw [dispatchDue, e, if_neg (by rw [BitVec.lt_def] at hd; rw [BitVec.le_def]; omega)]
  simp only [bodyOf, eventBody, tick_begun hc, Except.bind_ok, hb']
  rfl

end Sys2Proof.Machine
end

