-- ==== Sys2Proof/Laws/Keeps.lean ====
section
/-! SUPPORT. What no bus access and no dispatch changes: the parameters, the geometry, the lifecycle flags, the fault
register, the input ports and the waiting commands; and that each keeps the canonical form of memory and the derived
table. -/

namespace Sys2Proof.Machine

open Sys2Proof

/-- The fields that only the lifecycle commands and the host change. -/
structure Keeps (s t : State) : Prop where
  params : t.params = s.params
  geo : t.geo = s.geo
  loaded : t.loaded = s.loaded
  running : t.running = s.running
  faulted : t.faulted = s.faulted
  inputs : t.inputs = s.inputs
  commands : t.commands = s.commands

theorem Keeps.refl (s : State) : Keeps s s := ⟨rfl, rfl, rfl, rfl, rfl, rfl, rfl⟩

theorem Keeps.trans {s t u : State} (h : Keeps s t) (k : Keeps t u) : Keeps s u :=
  ⟨k.params.trans h.params, k.geo.trans h.geo, k.loaded.trans h.loaded, k.running.trans h.running,
   k.faulted.trans h.faulted, k.inputs.trans h.inputs, k.commands.trans h.commands⟩

theorem keeps_setTime (u : SchedUnit) (v : Cycle) (s : State) : Keeps s (s.setTime u v) := by
  constructor <;> simp

theorem keeps_raiseIrq (m : BitVec 5) (s : State) : Keeps s (s.raiseIrq m) := ⟨rfl, rfl, rfl, rfl, rfl, rfl, rfl⟩

theorem keeps_setDmaSrc (d : DmaSrc) (s : State) : Keeps s (s.setDmaSrc d) := ⟨rfl, rfl, rfl, rfl, rfl, rfl, rfl⟩

theorem keeps_writeArena {r : Region} {i : Int} {v : Byte} {s t : State} (h : s.writeArena r i v = .ok t) :
    Keeps s t := by
  obtain ⟨_, _, rfl⟩ := State.writeArena_inv h; exact ⟨rfl, rfl, rfl, rfl, rfl, rfl, rfl⟩

theorem keeps_writeArenaMaybe {r : Region} {i : Int} {v : Byte} {s t : State} (h : s.writeArenaMaybe r i v = .ok t) :
    Keeps s t := by
  obtain ⟨_, _, rfl⟩ := State.writeArenaMaybe_inv h; exact ⟨rfl, rfl, rfl, rfl, rfl, rfl, rfl⟩

theorem keeps_tick {c : Cycle} {s t : State} (h : s.tick c = .ok t) : Keeps s t := by
  obtain ⟨_, _, rfl⟩ := State.tick_inv h; exact ⟨rfl, rfl, rfl, rfl, rfl, rfl, rfl⟩

/-! ## Reads change the draw count and nothing else -/

/-- A read that answers leaves the state as it was, but for the count of free values used. -/
theorem ffRead_state {p : Byte} {c : Cycle} {s t : State} {v : Byte} (h : ffRead p c s = .ok (v, t)) :
    t = { s with draws := t.draws } := by
  unfold ffRead at h
  split at h
  case h_4 => simp only [Except.ok.injEq, timaAt] at h; split_ifs at h <;> cases h <;> rfl
  case h_12 =>
    obtain ⟨b, -, h⟩ := Except.bind_ok_inv h
    cases h; rfl
  all_goals (cases h; rfl)

theorem slowRead_state {a : Addr} {c : Cycle} {s t : State} {v : Byte} (h : slowRead a c s = .ok (v, t)) :
    t = { s with draws := t.draws } := by
  unfold slowRead at h
  split_ifs at h
  all_goals first
    | (cases h; rfl)
    | exact ffRead_state h
    | (simp only [slowReadVram, slowReadEcho, slowReadOam] at h
       split_ifs at h
       all_goals first
         | (cases h; rfl)
         | (obtain ⟨b, -, h⟩ := Except.bind_ok_inv h; cases h; rfl))

theorem busRead_state {a : Addr} {c : Cycle} {s t : State} {v : Byte} (h : busRead a c s = .ok (v, t)) :
    t = { s with draws := t.draws } := by
  unfold busRead at h
  split at h
  · obtain ⟨b, -, h⟩ := Except.bind_ok_inv h; cases h; rfl
  · exact slowRead_state h

theorem dmaSourceByte_state {a : Nat} {s t : State} {v : Byte} (h : dmaSourceByte a s = .ok (v, t)) :
    t = { s with draws := t.draws } := by
  unfold dmaSourceByte at h
  split_ifs at h
  all_goals first
    | (cases h; rfl)
    | (obtain ⟨b, -, h⟩ := Except.bind_ok_inv h; cases h; rfl)
    | (split at h
       · obtain ⟨b, -, h⟩ := Except.bind_ok_inv h; cases h; rfl
       · cases h; rfl)

theorem keeps_of_draws {s t : State} (h : t = { s with draws := t.draws }) : Keeps s t := by
  rw [h]; exact ⟨rfl, rfl, rfl, rfl, rfl, rfl, rfl⟩

/-! ## The units -/

theorem keeps_timaOverflow (c : Cycle) (s : State) : Keeps s (timaOverflow c s) := by
  constructor <;> simp [timaOverflow]

theorem keeps_timaCatchUp (n : Nat) (c : Cycle) (s : State) : Keeps s (timaCatchUp n c s) := by
  induction n generalizing s with
  | zero => exact .refl s
  | succ n ih =>
    unfold timaCatchUp
    split
    · exact (keeps_timaOverflow _ _).trans (ih _)
    · exact .refl s

theorem keeps_timaRun (c : Cycle) (s : State) : Keeps s (timaRun c s) := by
  unfold timaRun
  split
  · have h := keeps_timaCatchUp ((c - s.time.tima).toNat + 1) c s
    exact h.trans ⟨rfl, rfl, rfl, rfl, rfl, rfl, rfl⟩
  · exact ⟨rfl, rfl, rfl, rfl, rfl, rfl, rfl⟩

theorem keeps_divGlitch (c : Cycle) (s : State) : Keeps s (divGlitch c s) := by
  unfold divGlitch
  split_ifs
  · exact keeps_timaOverflow c s
  · exact ⟨rfl, rfl, rfl, rfl, rfl, rfl, rfl⟩
  · exact .refl s

theorem keeps_rescheduleTima (c : Cycle) (s : State) : Keeps s (s.rescheduleTima c) := keeps_setTime _ _ _

theorem keeps_timerDivWrite (c : Cycle) (s : State) : Keeps s (timerDivWrite c s) := by
  have h := (keeps_timaRun c s).trans (keeps_divGlitch c _)
  unfold timerDivWrite
  exact h.trans ⟨rfl, rfl, rfl, rfl, rfl, rfl, rfl⟩

theorem keeps_timerTimaWrite (v : Byte) (c : Cycle) (s : State) : Keeps s (timerTimaWrite v c s) := by
  unfold timerTimaWrite
  exact (keeps_timaRun c s).trans ⟨rfl, rfl, rfl, rfl, rfl, rfl, rfl⟩

theorem keeps_timerTmaWrite (v : Byte) (c : Cycle) (s : State) : Keeps s (timerTmaWrite v c s) := by
  unfold timerTmaWrite
  exact (keeps_timaRun c s).trans ⟨rfl, rfl, rfl, rfl, rfl, rfl, rfl⟩

theorem keeps_timerTacWrite (v : BitVec 3) (c : Cycle) (s : State) : Keeps s (timerTacWrite v c s) := by
  unfold timerTacWrite
  exact (keeps_timaRun c s).trans ⟨rfl, rfl, rfl, rfl, rfl, rfl, rfl⟩

theorem keeps_serialControl (v : Byte) (c : Cycle) (s : State) : Keeps s (serialControl v c s) := by
  unfold serialControl
  split <;> constructor <;> simp

theorem keeps_serialDispatch (t : Cycle) (s : State) : Keeps s (serialDispatch t s) := by
  unfold serialDispatch serialBitsLeft
  by_cases h0 : s.serial.serialBits = 0
  all_goals
    simp only [h0, if_true, if_false]
    split_ifs <;> constructor <;> simp

theorem keeps_dmaDispatch {c : Cycle} {s t : State} (h : dmaDispatch c s = .ok t) : Keeps s t := by
  unfold dmaDispatch at h
  obtain ⟨⟨v, s1⟩, h1, h⟩ := Except.bind_ok_inv h
  obtain ⟨s2, h2, h⟩ := Except.bind_ok_inv h
  have k1 := keeps_of_draws (dmaSourceByte_state h1)
  have k0 : Keeps s (if s.banks.oamDmaSrc = dmaClass s.dma.dmaReg then s else s.setDmaSrc (dmaClass s.dma.dmaReg)) := by
    split
    · exact .refl s
    · exact keeps_setDmaSrc _ _
  have k2 := (k0.trans k1).trans (keeps_writeArena h2)
  have k3 : Keeps s { s2 with dma := { s2.dma with dmaPos := s2.dma.dmaPos + 1 } } :=
    k2.trans ⟨rfl, rfl, rfl, rfl, rfl, rfl, rfl⟩
  dsimp only at h
  split at h
  · cases h; exact k3.trans ((keeps_setDmaSrc _ _).trans (keeps_setTime _ _ _))
  · cases h; exact k3.trans (keeps_setTime _ _ _)

theorem keeps_dispatch {u : SchedUnit} {c : Cycle} {s t : State} (h : dispatch u c s = .ok t) : Keeps s t := by
  cases u with
  | blit => cases h; constructor <;> simp [blitDispatch]
  | serial => cases h; exact keeps_serialDispatch _ _
  | oamDma => exact keeps_dmaDispatch h
  | tima => cases h; exact keeps_timaOverflow _ _
  | lyc =>
    cases h
    unfold lycDispatch
    split
    · exact (keeps_raiseIrq _ _).trans (keeps_setTime _ _ _)
    · exact keeps_setTime _ _ _

/-! ## Writes -/

theorem keeps_selectVrambank {b : BitVec 16} {s t : State} (h : selectVrambank b s = .ok t) : Keeps s t := by
  unfold selectVrambank at h
  split at h
  · simp at h
  · cases h; exact ⟨rfl, rfl, rfl, rfl, rfl, rfl, rfl⟩

theorem keeps_selectWrambank {b : BitVec 16} {s t : State} (h : selectWrambank b s = .ok t) : Keeps s t := by
  unfold selectWrambank at h
  split at h
  · simp at h
  · cases h; exact ⟨rfl, rfl, rfl, rfl, rfl, rfl, rfl⟩

theorem keeps_ffWrite {p v : Byte} {c : Cycle} {s t : State} (h : ffWrite p v c s = .ok t) : Keeps s t := by
  unfold ffWrite at h
  split at h
  case h_2 => cases h; exact keeps_serialControl _ _ _
  case h_3 => cases h; exact keeps_timerDivWrite _ _
  case h_4 => cases h; exact keeps_timerTimaWrite _ _ _
  case h_5 => cases h; exact keeps_timerTmaWrite _ _ _
  case h_6 => cases h; exact keeps_timerTacWrite _ _ _
  case h_9 => exact keeps_selectVrambank h
  case h_10 => exact keeps_selectWrambank h
  case h_12 => exact keeps_writeArena h
  case h_8 => cases h; constructor <;> simp [dmaStart]
  all_goals (cases h; exact ⟨rfl, rfl, rfl, rfl, rfl, rfl, rfl⟩)

theorem keeps_contendedWrite {a : Addr} {v : Byte} {c : Cycle} {s t : State} (h : contendedWrite a v c s = .ok t) :
    Keeps s t := by
  unfold contendedWrite at h
  split at h
  · exact keeps_writeArenaMaybe h
  · cases h; exact ⟨rfl, rfl, rfl, rfl, rfl, rfl, rfl⟩
  · cases h; exact ⟨rfl, rfl, rfl, rfl, rfl, rfl, rfl⟩

theorem keeps_slowWrite {a : Addr} {v : Byte} {c : Cycle} {s t : State} (h : slowWrite a v c s = .ok t) :
    Keeps s t := by
  unfold slowWrite at h
  split_ifs at h
  all_goals first
    | exact keeps_contendedWrite h
    | exact keeps_ffWrite h
    | (cases h; exact ⟨rfl, rfl, rfl, rfl, rfl, rfl, rfl⟩)
    | (simp only [slowWriteVram, slowWriteEcho, slowWriteOam] at h
       split_ifs at h
       all_goals first
         | exact keeps_writeArenaMaybe h
         | exact keeps_writeArena h
         | (cases h; exact .refl _))

theorem keeps_busWrite {a : Addr} {v : Byte} {c : Cycle} {s t : State} (h : busWrite a v c s = .ok t) :
    Keeps s t := by
  unfold busWrite at h
  split at h
  · exact keeps_writeArena h
  · cases h; exact .refl s
  · exact keeps_slowWrite h

/-! ## What every body keeps -/

/-- No body changes the parameters, the fault register, the input ports or the waiting commands. -/
theorem body_keeps {i : Instr} {s t : State} (h : bodyOf i s = .ok t) :
    t.params = s.params ∧ t.faulted = s.faulted ∧ t.inputs = s.inputs ∧ t.commands = s.commands := by
  have key : ∀ {s t : State}, Keeps s t →
      t.params = s.params ∧ t.faulted = s.faulted ∧ t.inputs = s.inputs ∧ t.commands = s.commands :=
    fun k => ⟨k.params, k.faulted, k.inputs, k.commands⟩
  cases i with
  | reset rom ram wram cgb =>
    simp only [bodyOf, resetBody] at h
    split_ifs at h
    · cases h; exact ⟨rfl, rfl, rfl, rfl⟩
    · cases h; exact ⟨rfl, rfl, rfl, rfl⟩
  | setRombank0 bank =>
    simp only [bodyOf, selectRombank0] at h
    split_ifs at h
    cases h; exact ⟨rfl, rfl, rfl, rfl⟩
  | setRombank bank =>
    simp only [bodyOf, selectRombank] at h
    split_ifs at h
    cases h; exact ⟨rfl, rfl, rfl, rfl⟩
  | setRambank bank flags =>
    simp only [bodyOf, selectRambank] at h
    split_ifs at h
    cases h; exact ⟨rfl, rfl, rfl, rfl⟩
  | setWrambank bank => exact key (keeps_selectWrambank h)
  | setVrambank bank => exact key (keeps_selectVrambank h)
  | setOamDmaSrc src =>
    cases hd : DmaSrc.ofCode src.toNat with
    | none => simp [bodyOf, hd] at h
    | some d => simp only [bodyOf, hd] at h; cases h; exact key (keeps_setDmaSrc _ _)
  | read a c =>
    obtain ⟨s1, h1, h⟩ := Except.bind_ok_inv h
    obtain ⟨⟨v, s2⟩, h2, h⟩ := Except.bind_ok_inv h
    cases h
    exact key ((keeps_tick h1).trans ((keeps_of_draws (busRead_state h2)).trans ⟨rfl, rfl, rfl, rfl, rfl, rfl, rfl⟩))
  | write a v c =>
    obtain ⟨s1, h1, h⟩ := Except.bind_ok_inv h
    exact key ((keeps_tick h1).trans (keeps_busWrite h))
  | ffRead p c =>
    obtain ⟨s1, h1, h⟩ := Except.bind_ok_inv h
    obtain ⟨⟨v, s2⟩, h2, h⟩ := Except.bind_ok_inv h
    cases h
    exact key ((keeps_tick h1).trans ((keeps_of_draws (ffRead_state h2)).trans ⟨rfl, rfl, rfl, rfl, rfl, rfl, rfl⟩))
  | ffWrite p v c =>
    obtain ⟨s1, h1, h⟩ := Except.bind_ok_inv h
    exact key ((keeps_tick h1).trans (keeps_ffWrite h))
  | event c =>
    obtain ⟨s1, h1, h⟩ := Except.bind_ok_inv h
    obtain ⟨s2, h2, h⟩ := Except.bind_ok_inv h
    have k2 : Keeps s1 s2 := by
      unfold dispatchDue at h2
      split at h2
      · exact keeps_dispatch h2
      · cases h2; exact .refl _
    cases h
    exact key ((keeps_tick h1).trans (k2.trans ⟨rfl, rfl, rfl, rfl, rfl, rfl, rfl⟩))
  | mreset =>
    obtain ⟨s1, h1, h⟩ := Except.bind_ok_inv h
    obtain ⟨-, rfl⟩ := State.checkLyView_inv h1
    cases h; exact ⟨rfl, rfl, rfl, rfl⟩
  | setDs ds c =>
    obtain ⟨s1, h1, h⟩ := Except.bind_ok_inv h
    obtain ⟨s2, h2, h⟩ := Except.bind_ok_inv h
    obtain ⟨-, rfl⟩ := State.checkLyView_inv h2
    obtain ⟨-, -, rfl⟩ := State.tick_inv h1
    cases h; exact ⟨rfl, rfl, rfl, rfl⟩
  | rebase d =>
    simp only [bodyOf, rebaseBody] at h
    split_ifs at h
    cases h; exact ⟨rfl, rfl, rfl, rfl⟩
  | lycCfg lyc en c =>
    unfold bodyOf lycCfgBody at h
    obtain ⟨s1, h1, h2⟩ := Except.bind_ok_inv h
    obtain ⟨s2, h3, h4⟩ := Except.bind_ok_inv h2
    obtain ⟨-, rfl⟩ := State.checkLyView_inv h3
    obtain ⟨-, -, rfl⟩ := State.tick_inv h1
    cases h4; constructor <;> simp
  | ei c =>
    obtain ⟨s1, h1, h⟩ := Except.bind_ok_inv h
    obtain ⟨-, -, rfl⟩ := State.tick_inv h1
    cases h; exact ⟨rfl, rfl, rfl, rfl⟩
  | irqIn m c =>
    obtain ⟨s1, h1, h⟩ := Except.bind_ok_inv h
    obtain ⟨-, -, rfl⟩ := State.tick_inv h1
    cases h; exact ⟨rfl, rfl, rfl, rfl⟩
  | loadState =>
    simp only [bodyOf, loadBody] at h
    split_ifs at h
    · cases h; exact ⟨rfl, rfl, rfl, rfl⟩
    · split at h
      · simp at h
      · cases h; exact ⟨rfl, rfl, rfl, rfl⟩
  | nextEventTime => cases h; exact ⟨rfl, rfl, rfl, rfl⟩
  | takeFrame => cases h; exact ⟨rfl, rfl, rfl, rfl⟩
  | halt => cases h; exact ⟨rfl, rfl, rfl, rfl⟩
  | di => cases h; exact ⟨rfl, rfl, rfl, rfl⟩
  | ime => cases h; exact ⟨rfl, rfl, rfl, rfl⟩
  | halted => cases h; exact ⟨rfl, rfl, rfl, rfl⟩
  | stateSize => cases h; exact ⟨rfl, rfl, rfl, rfl⟩
  | saveState => cases h; exact ⟨rfl, rfl, rfl, rfl⟩

end Sys2Proof.Machine
end

