-- ==== Sys2Proof/Laws/PerInstr.lean ====
section
/-! SUPPORT. The family RoundTrip: decoding the packet of a well-formed command gives the command back
(30_encoding.md R105), one lemma per constructor. -/

namespace Sys2Proof.Laws.RoundTrip

open Sys2Proof

/-- What the family says of one command. -/
def Statement (i : Instr) : Prop := i.wellFormed = true → decode (encode i) = .ok i

/-- The C field of RESET, taken apart again (30_encoding.md R102, format RST). -/
theorem rst_fields : ∀ (cgb : Bool) (wram : BitVec 4),
    (0#23 ++ bit1 cgb ++ 0#4 ++ wram : BitVec 32).extractLsb' 9 23 = 0 ∧
    (0#23 ++ bit1 cgb ++ 0#4 ++ wram : BitVec 32).extractLsb' 4 4 = 0 ∧
    (0#23 ++ bit1 cgb ++ 0#4 ++ wram : BitVec 32).extractLsb' 0 4 = wram ∧
    (0#23 ++ bit1 cgb ++ 0#4 ++ wram : BitVec 32)[8] = cgb := by decide

/-- A three-bit B field, taken apart again (formats RB and SRC). -/
theorem b3_fields : ∀ x : BitVec 3,
    (0#5 ++ x : BitVec 8).extractLsb' 3 5 = 0 ∧ (0#5 ++ x : BitVec 8).extractLsb' 0 3 = x := by decide

/-- A one-bit B field, taken apart again (formats S and L). -/
theorem b1_fields : ∀ x : Bool,
    (0#7 ++ bit1 x : BitVec 8).extractLsb' 1 7 = 0 ∧ (0#7 ++ bit1 x : BitVec 8)[0] = x := by decide

/-- A five-bit B field, taken apart again (format I). -/
theorem b5_fields : ∀ x : BitVec 5,
    (0#3 ++ x : BitVec 8).extractLsb' 5 3 = 0 ∧ (0#3 ++ x : BitVec 8).extractLsb' 0 5 = x := by decide

theorem reset (rom : BitVec 16) (ram : BitVec 8) (wram : BitVec 4) (cgb : Bool) :
    Statement (.reset rom ram wram cgb) := by
  intro _
  obtain ⟨h1, h2, h3, h4⟩ := rst_fields cgb wram
  simp [encode, decodeFields, decodeRST, acceptIf, h1, h2, h3, h4]

theorem setRombank0 (bank : BitVec 16) : Statement (.setRombank0 bank) := by
  intro _; simp [encode, decodeFields, decodeBK, acceptIf]

theorem setRombank (bank : BitVec 16) : Statement (.setRombank bank) := by
  intro _; simp [encode, decodeFields, decodeBK, acceptIf]

theorem setRambank (bank : BitVec 8) (flags : BitVec 3) : Statement (.setRambank bank flags) := by
  intro _
  obtain ⟨h1, h2⟩ := b3_fields flags
  simp [encode, decodeFields, decodeRB, acceptIf, h1, h2]

theorem setWrambank (bank : BitVec 16) : Statement (.setWrambank bank) := by
  intro _; simp [encode, decodeFields, decodeBK, acceptIf]

theorem setVrambank (bank : BitVec 16) : Statement (.setVrambank bank) := by
  intro _; simp [encode, decodeFields, decodeBK, acceptIf]

theorem setOamDmaSrc (src : BitVec 3) : Statement (.setOamDmaSrc src) := by
  intro hw
  obtain ⟨h1, h2⟩ := b3_fields src
  have h3 : src.toNat ≤ 5 := by simpa [Instr.wellFormed] using hw
  simp [encode, decodeFields, decodeSRC, h1, h2, h3]

theorem read (a : Addr) (c : Cycle) : Statement (.read a c) := by
  intro _; simp [encode, decodeFields, acceptIf]

theorem write (a : Addr) (v : Byte) (c : Cycle) : Statement (.write a v c) := by
  intro _; simp [encode, decodeFields]

theorem ffRead (p : Byte) (c : Cycle) : Statement (.ffRead p c) := by
  intro _; simp [encode, decodeFields, acceptIf]

theorem ffWrite (p v : Byte) (c : Cycle) : Statement (.ffWrite p v c) := by
  intro _; simp [encode, decodeFields, acceptIf]

theorem event (c : Cycle) : Statement (.event c) := by
  intro _; simp [encode, decodeFields, decodeCY, acceptIf]

theorem nextEventTime : Statement .nextEventTime := by
  intro _; simp [encode, decodeFields, decodeN, acceptIf]

theorem mreset : Statement .mreset := by
  intro _; simp [encode, decodeFields, decodeN, acceptIf]

theorem setDs (ds : Bool) (c : Cycle) : Statement (.setDs ds c) := by
  intro _
  obtain ⟨h1, h2⟩ := b1_fields ds
  simp [encode, decodeFields, decodeS, acceptIf, h1, h2]

theorem rebase (d : Cycle) : Statement (.rebase d) := by
  intro _; simp [encode, decodeFields, decodeCY, acceptIf]

theorem lycCfg (lyc : Byte) (en : Bool) (c : Cycle) : Statement (.lycCfg lyc en c) := by
  intro _
  obtain ⟨h1, h2⟩ := b1_fields en
  simp [encode, decodeFields, decodeL, acceptIf, h1, h2]

theorem takeFrame : Statement .takeFrame := by
  intro _; simp [encode, decodeFields, decodeN, acceptIf]

theorem halt : Statement .halt := by
  intro _; simp [encode, decodeFields, decodeN, acceptIf]

theorem ei (c : Cycle) : Statement (.ei c) := by
  intro _; simp [encode, decodeFields, decodeCY, acceptIf]

theorem di : Statement .di := by
  intro _; simp [encode, decodeFields, decodeN, acceptIf]

theorem ime : Statement .ime := by
  intro _; simp [encode, decodeFields, decodeN, acceptIf]

theorem halted : Statement .halted := by
  intro _; simp [encode, decodeFields, decodeN, acceptIf]

theorem irqIn (mask : BitVec 5) (c : Cycle) : Statement (.irqIn mask c) := by
  intro _
  obtain ⟨h1, h2⟩ := b5_fields mask
  simp [encode, decodeFields, decodeI, acceptIf, h1, h2]

theorem stateSize : Statement .stateSize := by
  intro _; simp [encode, decodeFields, decodeN, acceptIf]

theorem saveState : Statement .saveState := by
  intro _; simp [encode, decodeFields, decodeN, acceptIf]

theorem loadState : Statement .loadState := by
  intro _; simp [encode, decodeFields, decodeN, acceptIf]

end Sys2Proof.Laws.RoundTrip
end

