-- ==== Sys2Proof/Laws/SaveState.lean ====
section
/-! SUPPORT. The bytes of the save-state blob: little-endian fields taken apart and put together, the lengths of its
parts, and the length test of LOAD_STATE. -/

namespace Sys2Proof.Machine

open Sys2Proof

/-- The length test counts the list. -/
theorem hasLength_iff {α : Type} (l : List α) (n : Nat) : hasLength l n = true ↔ l.length = n := by
  induction l generalizing n with
  | nil =>
    rw [show hasLength ([] : List α) n = (n == 0) from rfl, beq_iff_eq]
    exact ⟨fun h => h.symm, fun h => h.symm⟩
  | cons a rest ih =>
    cases n with
    | zero => rw [show hasLength (a :: rest) 0 = false from rfl]; simp
    | succ n => rw [show hasLength (a :: rest) (n + 1) = hasLength rest n from rfl, ih]; simp

/-- A 16-bit field from its two bytes. -/
theorem le16_join (x : BitVec 16) : (x.extractLsb' 8 8 ++ x.extractLsb' 0 8 : BitVec 16) = x := by
  apply BitVec.eq_of_getLsbD_eq
  intro i hi
  simp only [BitVec.getLsbD_append, BitVec.getLsbD_extractLsb']
  by_cases h : i < 8
  · simp [h]
  · simp [h, show i - 8 < 8 by omega, show 8 + (i - 8) = i by omega]

/-- A 32-bit field from its four bytes. -/
theorem le32_join (x : BitVec 32) :
    (x.extractLsb' 24 8 ++ x.extractLsb' 16 8 ++ x.extractLsb' 8 8 ++ x.extractLsb' 0 8 : BitVec 32) = x := by
  apply BitVec.eq_of_getLsbD_eq
  intro i hi
  simp only [BitVec.getLsbD_append, BitVec.getLsbD_extractLsb']
  by_cases h0 : i < 8
  · simp [h0]
  · by_cases h1 : i < 16
    · simp [h0, show i - 8 < 8 by omega, show 8 + (i - 8) = i by omega]
    · by_cases h2 : i < 24
      · simp [h0, show ¬(i - 8 < 8) by omega, show i - 8 - 8 < 8 by omega, show 16 + (i - 8 - 8) = i by omega]
      · simp [h0, show ¬(i - 8 < 8) by omega, show ¬(i - 8 - 8 < 8) by omega, show i - 8 - 8 - 8 < 8 by omega,
          show 24 + (i - 8 - 8 - 8) = i by omega]

/-- The header is 64 bytes long (44_save_state.md R281). -/
@[simp] theorem headerBytes_length (s : State) : (headerBytes s).length = 0x40 := by
  simp [headerBytes, le32, le16]

@[simp] theorem regionBytes_length (r : Region) (s : State) : (regionBytes r s).length = r.length s.geo := by
  simp [regionBytes]

/-- A byte of a region's list is that byte of the Backing Store. -/
theorem regionBytes_getD {r : Region} {s : State} {i : Nat} (h : i < r.length s.geo) :
    (regionBytes r s).getD i 0 = s.arena.byte r i := by
  simp [regionBytes, Memory.toBytes, List.getD, List.getElem?_range h, Arena.byte]

/-- A byte of a joined list, from its first part or the rest. -/
theorem blobByte_append (a b : List Byte) (i : Nat) :
    blobByte (a ++ b) i = if i < a.length then blobByte a i else blobByte b (i - a.length) := by
  unfold blobByte List.getD
  split
  · next h => rw [List.getElem?_append_left h]
  · next h => rw [List.getElem?_append_right (by omega)]

/-- Within the header a blob's byte is the header's. -/
theorem blobByte_saveBlob {s : State} {i : Nat} (h : i < 0x40) : blobByte (saveBlob s) i = blobByte (headerBytes s) i := by
  simp only [saveBlob, List.append_assoc]
  rw [blobByte_append, if_pos (by simpa using h)]

/-- Every source has a code that names it, at most 5. -/
theorem ofCode_code (d : DmaSrc) : DmaSrc.ofCode d.code.toNat = some d ∧ d.code.toNat ≤ 5 := by cases d <;> decide

end Sys2Proof.Machine
end

