-- ==== Sys2Proof/Machine/Assembler.lean ====
section
/-! DEFINITION. The assembler syntax of the commands (30_encoding.md R109): what a command is written as. Numbers are
written in decimal, which the rule allows; port values in braces are the environment's and not part of a command. -/

namespace Sys2Proof.Machine

open Sys2Proof

/-- A flag list of SET_RAMBANK, or 0 (R109). -/
def asmFlags (flags : BitVec 3) : String :=
  let names := (if readEn flags then ["READ_EN"] else []) ++ (if writeEn flags then ["WRITE_EN"] else [])
    ++ (if rtcEn flags then ["RTC_EN"] else [])
  if names = [] then "0" else String.intercalate "|" names

/-- A source name of SET_OAMDMASRC (R109); the codes 6 and 7 have none. -/
def asmSource (src : BitVec 3) : String :=
  match DmaSrc.ofCode src.toNat with
  | some .rom => "ROM"
  | some .sram => "SRAM"
  | some .vram => "VRAM"
  | some .wram => "WRAM"
  | some .invalid => "INVALID"
  | some .off => "OFF"
  | none => "?"

/-- A one-bit operand (R109). -/
def asmBit (b : Bool) : String := if b then "1" else "0"

/-- An unsigned operand, in decimal (R109). -/
def asmNum {w : Nat} (v : BitVec w) : String := toString v.toNat

/-- A command as it is written (R109). -/
def asm : Instr → String
  | .reset rom ram wram cgb => "RESET rom=" ++ asmNum rom ++ ", ram=" ++ asmNum ram ++ ", wram=" ++ asmNum wram
      ++ ", cgb=" ++ asmBit cgb
  | .setRombank0 bank => "SET_ROMBANK0 " ++ asmNum bank
  | .setRombank bank => "SET_ROMBANK " ++ asmNum bank
  | .setRambank bank flags => "SET_RAMBANK " ++ asmNum bank ++ ", " ++ asmFlags flags
  | .setWrambank bank => "SET_WRAMBANK " ++ asmNum bank
  | .setVrambank bank => "SET_VRAMBANK " ++ asmNum bank
  | .setOamDmaSrc src => "SET_OAMDMASRC " ++ asmSource src
  | .read a c => "READ " ++ asmNum a ++ " @" ++ asmNum c
  | .write a v c => "WRITE " ++ asmNum a ++ ", " ++ asmNum v ++ " @" ++ asmNum c
  | .ffRead p c => "FF_READ " ++ asmNum p ++ " @" ++ asmNum c
  | .ffWrite p v c => "FF_WRITE " ++ asmNum p ++ ", " ++ asmNum v ++ " @" ++ asmNum c
  | .event c => "EVENT @" ++ asmNum c
  | .nextEventTime => "NEXT_EVENT_TIME"
  | .mreset => "MRESET"
  | .setDs ds c => "SET_DS " ++ asmBit ds ++ " @" ++ asmNum c
  | .rebase d => "REBASE " ++ asmNum d
  | .lycCfg lyc en c => "LYC_CFG " ++ asmNum lyc ++ ", " ++ asmBit en ++ " @" ++ asmNum c
  | .takeFrame => "TAKE_FRAME"
  | .halt => "HALT"
  | .ei c => "EI @" ++ asmNum c
  | .di => "DI"
  | .ime => "IME"
  | .halted => "HALTED"
  | .irqIn m c => "IRQ_IN " ++ asmNum m ++ " @" ++ asmNum c
  | .stateSize => "STATE_SIZE"
  | .saveState => "SAVE_STATE"
  | .loadState => "LOAD_STATE"

end Sys2Proof.Machine
end

