-- ==== Sys2Proof/Tests/Slice0.lean ====
section
/-! SUPPORT. The model's own tests. Expected values are those of the vectors of 95_test_vectors.md, named in each
comment, or are worked out from the rule named there. -/

namespace Sys2Proof.Tests

set_option Elab.async false

open Sys2Proof Sys2Proof.Machine

/-! ## Well-formedness: the one check, and the ill-formed term it refuses -/

theorem test_wellFormed_accepts_off : Instr.wellFormed (.setOamDmaSrc 5) = true := by decide
/-- B21: code 6 is illegal (30_encoding.md R103). -/
theorem test_wellFormed_refuses_code6 : Instr.wellFormed (.setOamDmaSrc 6) = false := by decide
theorem test_wellFormed_refuses_code7 : Instr.wellFormed (.setOamDmaSrc 7) = false := by decide

/-! ## Decoding: one written-out packet for every constructor, from the vectors, and illegal ones -/

/-- B1. -/
theorem test_decode_reset : decode 0x0100040400000108#64 = .ok (.reset 4 4 8 true) := by decide
/-- B6. -/
theorem test_decode_setRombank0 : decode 0x0200020000000000#64 = .ok (.setRombank0 2) := by decide
/-- B10. -/
theorem test_decode_setRombank : decode 0x03FFFF0000000000#64 = .ok (.setRombank 0xFFFF) := by decide
/-- B17: RTC_EN and WRITE_EN are bits 2 and 1. -/
theorem test_decode_setRambank : decode 0x0400000600000000#64 = .ok (.setRambank 0 6) := by decide
/-- B18. -/
theorem test_decode_setWrambank : decode 0x0500050000000000#64 = .ok (.setWrambank 5) := by decide
/-- B29. -/
theorem test_decode_setVrambank : decode 0x0600010000000000#64 = .ok (.setVrambank 1) := by decide
/-- B20. -/
theorem test_decode_setOamDmaSrc : decode 0x0700000500000000#64 = .ok (.setOamDmaSrc 5) := by decide
/-- B8. -/
theorem test_decode_read : decode 0x107FFF0000000001#64 = .ok (.read 0x7FFF 1) := by decide
/-- M1. -/
theorem test_decode_write : decode 0x11C00012000000C8#64 = .ok (.write 0xC000 0x12 200) := by decide
/-- M12. -/
theorem test_decode_ffRead : decode 0x1200040000001234#64 = .ok (.ffRead 0x04 0x1234) := by decide
/-- M10. -/
theorem test_decode_ffWrite : decode 0x13000FE400000005#64 = .ok (.ffWrite 0x0F 0xE4 5) := by decide
/-- S15. -/
theorem test_decode_event : decode 0x2000000000010080#64 = .ok (.event 65664) := by decide
/-- S1. -/
theorem test_decode_nextEventTime : decode 0x2100000000000000#64 = .ok .nextEventTime := by decide
/-- S1. -/
theorem test_decode_mreset : decode 0x2200000000000000#64 = .ok .mreset := by decide
/-- S10. -/
theorem test_decode_setDs : decode 0x2300000100000000#64 = .ok (.setDs true 0) := by decide
/-- S16. -/
theorem test_decode_rebase : decode 0x240000007FFFFF00#64 = .ok (.rebase 0x7FFFFF00) := by decide
/-- S5. -/
theorem test_decode_lycCfg : decode 0x25000A0100000064#64 = .ok (.lycCfg 10 true 100) := by decide
/-- S15. -/
theorem test_decode_takeFrame : decode 0x2600000000000000#64 = .ok .takeFrame := by decide
/-- Q1. -/
theorem test_decode_halt : decode 0x3000000000000000#64 = .ok .halt := by decide
/-- Q6. -/
theorem test_decode_ei : decode 0x3100000000000190#64 = .ok (.ei 400) := by decide
/-- Q7. -/
theorem test_decode_di : decode 0x3200000000000000#64 = .ok .di := by decide
/-- Q6. -/
theorem test_decode_ime : decode 0x3300000000000000#64 = .ok .ime := by decide
/-- Q1. -/
theorem test_decode_halted : decode 0x3400000000000000#64 = .ok .halted := by decide
/-- Q4. -/
theorem test_decode_irqIn : decode 0x3500001F00000001#64 = .ok (.irqIn 0x1F 1) := by decide
/-- V1. -/
theorem test_decode_stateSize : decode 0x4000000000000000#64 = .ok .stateSize := by decide
/-- V2. -/
theorem test_decode_saveState : decode 0x4100000000000000#64 = .ok .saveState := by decide
/-- V3. -/
theorem test_decode_loadState : decode 0x4200000000000000#64 = .ok .loadState := by decide

/-- X1, X2: unlisted opcodes. -/
theorem test_decode_unlisted : decode 0x0000000000000000#64 = .error .unknownOpcode ∧
    decode 0x0800000000000000#64 = .error .unknownOpcode := by decide
/-- X3, X4, M22, Q8: reserved bits of the formats N, RST, M and I. -/
theorem test_decode_reserved : decode 0x2100000000000001#64 = .error .reservedBit ∧
    decode 0x0100020000000012#64 = .error .reservedBit ∧ decode 0x1040000100000003#64 = .error .reservedBit ∧
    decode 0x3500002000000000#64 = .error .reservedBit := by decide
/-- Reserved bits of the formats BK, RB, SRC, F, CY, S and L (30_encoding.md R102). -/
theorem test_decode_reserved_more : decode 0x0200020100000000#64 = .error .reservedBit ∧
    decode 0x0401000300000000#64 = .error .reservedBit ∧ decode 0x0400000800000000#64 = .error .reservedBit ∧
    decode 0x0700000000000001#64 = .error .reservedBit ∧ decode 0x1201040000000000#64 = .error .reservedBit ∧
    decode 0x1301040000000000#64 = .error .reservedBit ∧ decode 0x2000000100000000#64 = .error .reservedBit ∧
    decode 0x2300000200000000#64 = .error .reservedBit ∧ decode 0x25010A0100000000#64 = .error .reservedBit := by decide
/-- B21. -/
theorem test_decode_badSource : decode 0x0700000600000000#64 = .error .badSourceCode := by decide

/-! ## Small states -/

/-- The state after a command, or the state before it where the model stops. -/
def after (i : Instr) (s : State) : State :=
  match exec i s with
  | .next t => t
  | .fault _ => s
  | .refused _ => s

/-- What a command answers. -/
def answer (i : Instr) (s : State) : Response := (after i s).outputs.rsp

/-- The fault a command leaves, with its info. -/
def raised (i : Instr) (s : State) : Option (FaultId × FaultInfo) := (after i s).faulted.map fun f => (f.id, f.info)

/-- A machine after RESET and MRESET with the LY view (0, 456) (vector S1), its memory empty but for what a test puts
there. -/
def base (rom : BitVec 16) (ram : BitVec 8) (wram : BitVec 4) (cgb : Bool) : State :=
  State.derive { State.reset with
    loaded := true, running := true
    geo := { romBanks := rom, ramBanks := ram, wramBanks := wram, isCgb := cgb }
    banks := freshBanks
    time := { blit := 65664, serial := disabled, oamDma := disabled, tima := disabled, lyc := 69775 } }

/-- The base machine of section 2 of the vectors. -/
def big : State := base 4 4 8 true

/-- Put one byte into a region. -/
def put (r : Region) (i : Nat) (v : Byte) (s : State) : State := { s with arena := s.arena.store r i v }

/-! ## One step each -/

/-- B1: the default banks; and the image is loaded. -/
theorem test_reset_loads :
    let t := after (.reset 4 4 8 true) { State.reset with inputs := { Inputs.powerOn with romImg := [(0x4005, 0x15)] } }
    t.outputs.rsp = .bit true ∧ t.loaded = true ∧ t.running = false ∧ t.banks.rombank = 1 ∧ t.banks.wrambankSel = 1 ∧
      t.byteAt .rom 0x4005 = 0x15 := by decide +kernel
/-- An illegal geometry is recorded with all four of its fields (60_exceptions.md R302, 10_state.md R22). -/
theorem test_reset_geometry : raised (.reset 1 0 2 true) big = some (.bank, .geometry 1 0 2 true) := by decide +kernel
/-- B2: a failed allocation answers false and leaves no cartridge. -/
theorem test_reset_alloc_fails :
    let t := after (.reset 4 4 8 true) { big with inputs := { Inputs.powerOn with alloc := false } }
    t.outputs.rsp = .bit false ∧ t.loaded = false ∧ t.running = false ∧ t.faulted = none := by decide +kernel
/-- B6: bank 2 at 0x0010 is ROM[0x8010]. -/
theorem test_setRombank0 : answer (.read 0x0010 1) (after (.setRombank0 2) (put .rom 0x8010 0x20 big)) = .byte 0x20 := by
  decide +kernel
/-- B8: bank 3 at 0x7FFF is ROM[0xFFFF]. -/
theorem test_setRombank : answer (.read 0x7FFF 1) (after (.setRombank 3) (put .rom 0xFFFF 0x3F big)) = .byte 0x3F := by
  decide +kernel
/-- B10. -/
theorem test_setRombank_absent : raised (.setRombank 0xFFFF) big = some (.bank, .bank 0xFFFF) := by decide +kernel
/-- B11: enabled RAM bank 3. -/
theorem test_setRambank_store :
    (after (.write 0xA001 0x5A 1) (after (.setRambank 3 3) big)).byteAt .sram 0x6001 = 0x5A := by decide +kernel
/-- B13: a write-only period reads 0xFF. -/
theorem test_setRambank_writeOnly : answer (.read 0xA001 3) (after (.setRambank 3 2) (put .sram 0x6001 0x5A big)) =
    .byte 0xFF := by decide +kernel
/-- W11: with eight banks operand 9 selects bank 1, and operand 0 aliases to bank 1. -/
theorem test_setWrambank_low3 : (after (.setWrambank 9) big).banks.wramEff = 1 ∧
    (after (.setWrambank 7) big).banks.wramEff = 7 ∧ (after (.setWrambank 0) big).banks.wramEff = 1 := by decide +kernel
/-- B19. -/
theorem test_setWrambank_absent : raised (.setWrambank 2) (base 2 0 2 true) = some (.bank, .bank 2) := by decide +kernel
/-- B29: VRAM bank 1 at 0x8000 is VRAM[0x2000]. -/
theorem test_setVrambank :
    (after (.write 0x8000 0x5A 1) (after (.setVrambank 1) big)).byteAt .vram 0x2000 = 0x5A := by decide +kernel
/-- B22, W5: a WRAM source in CGB mode slows nibbles 0xC to 0xE and leaves the ROM windows. -/
theorem test_setOamDmaSrc_wram :
    let t := after (.setOamDmaSrc 3) big
    t.table.rmem.take 8 = big.table.rmem.take 8 ∧ (t.table.rmem.drop 12).take 3 = [.slow, .slow, .slow] ∧
      (t.table.wmem.drop 12).take 3 = [.slow, .slow, .slow] := by decide +kernel
/-- W6, B23: a ROM source in non-CGB mode slows nibbles 0x0 to 0x7 and 0xA to 0xE. -/
theorem test_setOamDmaSrc_dmg : (after (.setOamDmaSrc 0) (base 2 0 2 false)).table.rmem = List.replicate 16 .slow := by
  decide +kernel
/-- M8, M4: denied OAM and VRAM read 0xFF. -/
theorem test_read_denied :
    let s := { put .hi 0x10 0x66 (put .vram 0 0x55 big) with inputs := { Inputs.powerOn with vramOk := false, oamOk := false } }
    answer (.read 0xFE10 11) s = .byte 0xFF ∧ answer (.read 0x8000 4) s = .byte 0xFF := by decide +kernel
/-- M20: a cycle behind the counter. -/
theorem test_read_behind : raised (.read 0x4000 9) { big with cc := 10 } = some (.contract, .cycle 9) := by decide +kernel
/-- M2: the slow echo stores into the switchable bank. -/
theorem test_write_echo : (after (.write 0xF123 0x34 1) big).byteAt .wram 0x1123 = 0x34 := by decide +kernel
/-- M3: a control write is emitted and stores nothing. -/
theorem test_write_control :
    let t := after (.write 0x2000 0x05 3) big
    t.outputs.cartCtl = some ⟨0x2000, 0x05, 3⟩ ∧ t.arena = big.arena ∧ t.banks = big.banks ∧ t.cc = 3 := by decide +kernel
/-- M12: DIV is bits 15:8 of the divider. -/
theorem test_ffRead_div : answer (.ffRead 0x04 0x1234) big = .byte 0x12 := by decide +kernel
/-- T4: TIMA counts from the divider's phase. -/
theorem test_ffRead_tima :
    let s := { big with timer := { big.timer with tac := 5, tima := 2, divBase := 40, timaLast := 40 },
                        time := { big.time with tima := 4104 } }
    answer (.ffRead 0x05 55) s = .byte 2 ∧ answer (.ffRead 0x05 56) s = .byte 3 := by decide +kernel
/-- M10: only bits 4:0 of IF. -/
theorem test_ffWrite_if : (after (.ffWrite 0x0F 0xE4 5) big).irq.IF = 0x04 := by decide +kernel
/-- T5: the overdue overflow at 16 happens at its own cycle, before the new value. -/
theorem test_ffWrite_tima_overdue :
    let s := { big with timer := { big.timer with tac := 5, tima := 0xFF }, time := { big.time with tima := 16 } }
    let t := after (.ffWrite 0x05 0x10 20) s
    t.irq.IF = 0x04 ∧ t.timer.lastOvf = some 16 ∧ t.timer.tima = 0x10 ∧ t.time.tima = 3856 := by decide +kernel
/-- S15: the BLIT step. -/
theorem test_event_blit :
    let t := after (.event 65664) big
    t.frameDone = true ∧ t.time.blit = 135888 ∧ t.outputs.rsp = .word 69775 ∧ t.irq.IF = 0 := by decide +kernel
/-- T13: the first DMA step. -/
theorem test_event_dma :
    let s := put .wram 0 0x42 { big with dma := { dmaReg := 0xC0, dmaPos := 0 }, time := { big.time with oamDma := 204 } }
    let t := after (.event 204) s
    t.banks.oamDmaSrc = .wram ∧ t.byteAt .hi 0 = 0x42 ∧ t.dma.dmaPos = 1 ∧ t.outputs.rsp = .word 208 := by decide +kernel
/-- A step past the end follows 42_scheduler.md R236: one more, contention stays and the unit is armed again. -/
theorem test_event_dma_past_end :
    let t := after (.event 204) { big with dma := { dmaReg := 0xC0, dmaPos := 160 }, time := { big.time with oamDma := 204 } }
    t.banks.oamDmaSrc = .wram ∧ t.time.oamDma = 208 ∧ t.dma.dmaPos = 161 := by decide +kernel
/-- S1. -/
theorem test_nextEventTime : answer .nextEventTime big = .word 65664 := by decide +kernel
/-- S4: the view (100, 300). -/
theorem test_mreset : (after .mreset { big with inputs := { Inputs.powerOn with ly := 100, lyTime := 300 } }).time =
    { blit := 19908, serial := disabled, oamDma := disabled, tima := disabled, lyc := 24019 } := by decide +kernel
/-- S3: a line that does not exist. -/
theorem test_mreset_view : raised .mreset { big with inputs := { Inputs.powerOn with ly := 154, lyTime := 10 } } =
    some (.contract, .lyView 154 10) := by decide +kernel
/-- S10. -/
theorem test_setDs :
    let t := after (.setDs true 0) { big with inputs := { Inputs.powerOn with lyTime := 912 } }
    t.ds = true ∧ t.time.lyc = 139551 ∧ t.time.blit = 131328 := by decide +kernel
/-- S16. -/
theorem test_rebase :
    let t := after (.rebase 0x7FFFFF00) { big with
      cc := 0x7FFFFF10, time := { big.time with blit := 0x80000F00, lyc := disabled } }
    t.cc = 0x10 ∧ t.time.blit = 0x1000 ∧ t.time.lyc = disabled := by decide +kernel
/-- S17. -/
theorem test_rebase_large : raised (.rebase 0x20) { big with cc := 0x10 } = some (.contract, .delta 0x20) := by
  decide +kernel
/-- S5 and S6: this frame's line 10, and the next frame's once it has begun. -/
theorem test_lycCfg : (after (.lycCfg 10 true 100) big).time.lyc = 4559 ∧ (after (.lycCfg 10 true 5000)
    { big with inputs := { Inputs.powerOn with ly := 10, lyTime := 5016 } }).time.lyc = 74783 := by decide +kernel
/-- S8. -/
theorem test_lycCfg_off : (after (.lycCfg 154 true 5000)
    { big with inputs := { Inputs.powerOn with ly := 10, lyTime := 5016 } }).time.lyc = disabled := by decide +kernel
/-- S15. -/
theorem test_takeFrame :
    let t := after .takeFrame { big with frameDone := true }
    t.outputs.rsp = .bit true ∧ t.frameDone = false := by decide +kernel
/-- Q3: HALT with a pending enabled request does not stay halted. -/
theorem test_halt_pending : (after .halt { big with irq := { big.irq with IF := 4, IE := 4 } }).irq.halted = false := by
  decide +kernel
/-- Q1. -/
theorem test_halt : (after .halt big).irq.halted = true := by decide +kernel
/-- Q6. -/
theorem test_ei : (after (.ei 400) big).irq.ime = true ∧ (after (.ei 400) big).irq.eiCycle = 400 := by decide +kernel
/-- Q7. -/
theorem test_di :
    let t := after .di { big with irq := { big.irq with ime := true, eiCycle := 400 } }
    t.irq.ime = false ∧ t.irq.eiCycle = 400 := by decide +kernel
/-- Q6. -/
theorem test_ime : answer .ime { big with irq := { big.irq with ime := true } } = .bit true := by decide +kernel
/-- Q1. -/
theorem test_halted : answer .halted { big with irq := { big.irq with halted := true } } = .bit true := by decide +kernel
/-- Q2: the wake happens with IME clear. -/
theorem test_irqIn_wakes :
    let t := after (.irqIn 1 10) { big with irq := { big.irq with IE := 1, halted := true } }
    t.irq.IF = 1 ∧ t.irq.halted = false := by decide +kernel
/-- Q4: with no request enabled the CPU stays halted. -/
theorem test_irqIn_masked : (after (.irqIn 0x1F 1) { big with irq := { big.irq with halted := true } }).irq.halted =
    true := by decide +kernel
/-- V1. -/
theorem test_stateSize : answer .stateSize (base 2 0 2 false) = .word 25152 ∧ answer .stateSize big = .word 82496 := by
  decide +kernel
/-- V2: the header after MRESET; byte 0x18 on is the BLIT trigger 65664 = 0x00010080. -/
theorem test_saveState_header :
    let h := headerBytes (base 2 0 2 false)
    h.length = 64 ∧ h.getD 4 1 = 0 ∧ h.getD 0x0E 0 = 1 ∧ h.getD 0x12 0 = 1 ∧ h.getD 0x14 0 = 5 ∧
      (h.drop 0x18).take 4 = [0x80, 0x00, 0x01, 0x00] := by decide +kernel
/-- V3: a blob of the wrong size is rejected and changes nothing. -/
theorem test_loadState_size : after .loadState big = { big with outputs := { rsp := .bit false } } := by decide +kernel
/-- X7: no command clears a fault. -/
theorem test_fault_refuses : answer (.reset 2 0 2 false) (after (.read 0 0) State.reset) = .refused ∧
    raised (.reset 2 0 2 false) (after (.read 0 0) State.reset) = some (.noCart, .none) := by decide +kernel
/-- X5: decoding is checked before the cartridge. -/
theorem test_step_illegal_first : (match step (State.reset.withFetchWord 64 0) with
    | .next t => t.faulted.map (fun f => f.id)
    | .fault _ => none
    | .refused _ => none) = some .illegalCmd := by decide +kernel
/-- T11. -/
theorem test_dmaClass : [0x00, 0x7F, 0x80, 0x9F, 0xA0, 0xBF, 0xC0, 0xDF, 0xE0, 0xFE].map dmaClass =
    [.rom, .rom, .vram, .vram, .sram, .sram, .wram, .wram, .invalid, .invalid] := by decide
/-- Q10: bit 1 is serviced first, at vector 0x0048; and Q6: not at the EI cycle itself. -/
theorem test_service :
    let q : Irq := { IF := 6, IE := 0x1F, ime := true, halted := false, eiCycle := 400 }
    serviceBit q = some 1 ∧ serviceVector 1 = 0x0048 ∧ mayService q 400 = false ∧ mayService q 404 = true := by decide

end Sys2Proof.Tests
end

