-- ==== Sys2Proof/Tests/Witnesses.lean ====
section
/-! SUPPORT. For every statement with hypotheses, a state and operands that meet them together, and for a statement with
several clauses one for each clause, at a boundary of its range. -/

namespace Sys2Proof.Tests

set_option Elab.async false

open Sys2Proof Sys2Proof.Machine

/-- The invariants in a form that evaluates. -/
abbrev InvCheck (s : State) : Prop :=
  (s.loaded = true → s.table = deriveTable s.params s.geo s.banks) ∧
  (∀ r ∈ [Region.rom, .vram, .sram, .wram, .disr, .hi], Memory.wf r.fill (r.length s.geo) (s.arena.get r) = true) ∧
  (s.loaded = true →
    2 ≤ s.geo.romBanks.toNat ∧ 2 ≤ s.geo.wramBanks.toNat ∧ s.geo.wramBanks.toNat ≤ 8 ∧
    s.banks.rombank0.toNat < s.geo.romBanks.toNat ∧ s.banks.rombank.toNat < s.geo.romBanks.toNat ∧
    (s.geo.ramBanks.toNat = 0 ∨ s.banks.rambank.toNat < s.geo.ramBanks.toNat) ∧
    s.banks.wramEff < s.geo.wramBanks.toNat) ∧
  (s.running = true → s.loaded = true) ∧ (s.irq.halted = true → pend s.irq = 0) ∧
  (s.running = true → s.time.blit ≠ disabled) ∧ (s.running = true → s.cc.toNat < s.params.rebaseLimit) ∧
  s.serial.serialBits.toNat ≤ 8 ∧ s.arena.disr = []

/-- A state that passes the check meets the invariants. -/
theorem inv_of_check {s : State} (h : InvCheck s) : Inv s := by
  obtain ⟨h1, h2, h3, h4, h5, h6, h7, h8, h9⟩ := h
  refine ⟨h1, fun r => h2 r (by cases r <;> simp), h3, h4, h5, h6, h7, h8, fun i => ?_⟩
  simp [Arena.byte, Arena.get, h9, Region.fill]

/-- An outcome is a next state of which `P` holds. -/
def nextAnd (P : State → Bool) : Host.Outcome State Fault Refusal → Bool
  | .next t => P t
  | .fault _ => false
  | .refused _ => false

theorem next_of {P : State → Bool} {o : Host.Outcome State Fault Refusal} (h : nextAnd P o = true) :
    ∃ t, o = .next t ∧ P t = true := by
  cases o with
  | next t => exact ⟨t, rfl, h⟩
  | fault f => simp [nextAnd] at h
  | refused r => simp [nextAnd] at h

theorem big_ready : Ready big := by refine ⟨?_, ?_, ?_⟩ <;> decide +kernel
theorem big_inv : Inv big := inv_of_check (by decide +kernel)
theorem big_cycle : CycleOk 5 big := by constructor <;> decide +kernel

/-- The big machine with a DMA source. -/
def bigDma (d : DmaSrc) : State := big.setDmaSrc d
theorem bigDma_ready (d : DmaSrc) : Ready (bigDma d) := big_ready
theorem bigDma_cycle (d : DmaSrc) : CycleOk 5 (bigDma d) := big_cycle
theorem bigDma_inv (d : DmaSrc) : Inv (bigDma d) := inv_of_check (by cases d <;> decide +kernel)

/-- The big machine with RAM flags. -/
def bigRam (f : BitVec 3) : State := State.derive { big with banks := { big.banks with ramFlags := f } }
theorem bigRam_ready (f : BitVec 3) : Ready (bigRam f) := big_ready
theorem bigRam_inv (f : BitVec 3) : Inv (bigRam f) := by
  refine inv_of_check ?_
  have h : ∀ f : BitVec 3, InvCheck (bigRam f) := by decide +kernel
  exact h f

/-- The big machine with one waiting command. -/
def bigWith (p : Packet) : State := { big with commands := [⟨p, Inputs.powerOn⟩] }
theorem bigWith_inv (p : Packet) : Inv (bigWith p) :=
  ⟨big_inv.table, big_inv.memory, big_inv.banks, big_inv.running, big_inv.halt, big_inv.blit, big_inv.counter,
   big_inv.serial, big_inv.sentinel⟩

theorem witness_EncodeThenDecode : Instr.wellFormed (.setOamDmaSrc 5) = true := by decide
theorem witness_DecodeThenEncode : decode 0x0700000500000000#64 = .ok (.setOamDmaSrc 5) ∧
    decode 0x0700000600000000#64 = .error .badSourceCode := by decide
theorem witness_StepRunsDecodedCommand : big.commands = [] ∧
    (bigWith 0x3200000000000000#64).commands = [⟨0x3200000000000000#64, Inputs.powerOn⟩] ∧
    decode 0x3200000000000000#64 = .ok .di ∧ Instr.wellFormed .di = true := ⟨rfl, rfl, by decide, by decide⟩
theorem witness_IllegalPacketRaises : (bigWith 0#64).faulted = none ∧ decode 0#64 = .error .unknownOpcode ∧
    opField 0x0800000000000000#64 = 0x08 ∧
    (opField 0x2100000000000001#64 = 0x21 ∧ cField 0x2100000000000001#64 ≠ 0) ∧
    (opField 0x0700000600000000#64 = 0x07 ∧ bField 0x0700000600000000#64 = 6) := by decide +kernel
theorem witness_FaultDiscipline :
    ({ bigWith 0#64 with faulted := some ⟨.noCart, .none, 0⟩ } : State).faulted ≠ none ∧
    ∃ t, step (bigWith 0#64) = .next t ∧ t.faulted.isSome = true :=
  ⟨by simp, next_of (P := fun t => t.faulted.isSome) (by decide +kernel)⟩
theorem witness_LifecycleChecks : State.reset.faulted = none ∧ State.reset.loaded = false ∧
    ({ big with running := false } : State).faulted = none ∧ ({ big with running := false } : State).loaded = true := by
  decide +kernel
theorem witness_CycleOperandChecked : Ready { big with cc := 10 } ∧ ¬CycleOk 9 { big with cc := 10 } ∧
    ¬CycleOk 0x80000000 big ∧ CycleOk 10 { big with cc := 10 } ∧ CycleOk 0x7FFFFFFF big ∧
    ∃ t, exec (.ei 5) big = .next t ∧ t.faulted.isNone = true := by
  refine ⟨big_ready, ?_, ?_, ?_, ?_, next_of (P := fun t => t.faulted.isNone) (by decide +kernel)⟩ <;>
    (unfold CycleOk; decide +kernel)
theorem witness_InvariantsKept : Params.legal (bigWith 0x3000000000000000#64).params = true ∧
    Inv (bigWith 0x3000000000000000#64) ∧
    ∃ t, step (bigWith 0x3000000000000000#64) = .next t ∧ t.irq.halted = true :=
  ⟨by decide +kernel, bigWith_inv _, next_of (P := fun t => t.irq.halted) (by decide +kernel)⟩
theorem witness_NoStepStops : Inv (bigWith 0x3000000000000000#64) ∧ (bigWith 0x3000000000000000#64).commands ≠ [] :=
  ⟨bigWith_inv _, by simp [bigWith]⟩
theorem witness_TableStaysDerived : TableDerived (bigWith 0x0300020000000000#64) ∧
    ∃ t, step (bigWith 0x0300020000000000#64) = .next t ∧ (t.banks.rombank == 2) = true :=
  ⟨(bigWith_inv _).table, next_of (P := fun t => t.banks.rombank == 2) (by decide +kernel)⟩
theorem witness_HaltGateQuiet : HaltQuiet (bigWith 0x3000000000000000#64) ∧
    ∃ t, step (bigWith 0x3000000000000000#64) = .next t ∧ t.irq.halted = true :=
  ⟨(bigWith_inv _).halt, next_of (P := fun t => t.irq.halted) (by decide +kernel)⟩
theorem witness_WindowsInBounds : big.loaded = true ∧ BanksLegal big ∧
    big.derive.readEntry 0xDFFF = .win .wram (0x1000 - 0xD000) ∧ big.derive.writeEntry 0xE000 = .win .wram (-0xE000) :=
  ⟨by decide +kernel, big_inv.banks, by decide +kernel, by decide +kernel⟩
theorem witness_BaseWindows : big.banks.oamDmaSrc = .off ∧ (0x3FFF#16).toNat < 0x4000 ∧
    (0x4000 ≤ (0x4000#16).toNat ∧ (0x7FFF#16).toNat < 0x8000) ∧ (0x8000 ≤ (0x8000#16).toNat ∧ (0x9FFF#16).toNat < 0xA000)
    ∧ (0xA000 ≤ (0xA000#16).toNat ∧ (0xBFFF#16).toNat < 0xC000) ∧ (0xC000 ≤ (0xC000#16).toNat ∧ (0xCFFF#16).toNat < 0xD000)
    ∧ (0xD000 ≤ (0xD000#16).toNat ∧ (0xDFFF#16).toNat < 0xE000) ∧ (0xE000 ≤ (0xE000#16).toNat ∧ (0xEFFF#16).toNat < 0xF000)
    ∧ 0xF000 ≤ (0xF000#16).toNat := by decide +kernel
theorem witness_ContentionWindows : (bigDma .wram).banks.oamDmaSrc = .wram ∧ (bigDma .wram).geo.isCgb = true ∧
    (bigDma .wram).derive.readEntry 0xEFFF = .slow ∧ (bigDma .wram).derive.readEntry 0x7FFF ≠ .slow ∧
    (bigDma .sram).derive.writeEntry 0xBFFF = .slow ∧ (bigDma .rom).derive.readEntry 0x7FFF = .slow := by decide +kernel
theorem witness_ReadCompletes : Ready big ∧ CycleOk 5 big ∧ Inv big := ⟨big_ready, big_cycle, big_inv⟩
theorem witness_ReadThroughWindow : Ready (bigRam 1) ∧ CycleOk 5 (bigRam 1) ∧ Inv (bigRam 1) ∧
    (bigRam 1).romBlocked = false ∧ (bigRam 1).wramBlocked = false ∧ (bigRam 1).sramBlocked = false ∧
    (0x3FFF#16).toNat < 0x4000 ∧ (0x4000 ≤ (0x4000#16).toNat ∧ (0x4000#16).toNat < 0x8000) ∧
    (0xC000 ≤ (0xC000#16).toNat ∧ (0xC000#16).toNat < 0xD000) ∧ (0xD000 ≤ (0xDFFF#16).toNat ∧ (0xDFFF#16).toNat < 0xE000)
    ∧ (0xE000 ≤ (0xEFFF#16).toNat ∧ (0xEFFF#16).toNat < 0xF000) ∧ (0xA000 ≤ (0xBFFF#16).toNat ∧ (0xBFFF#16).toNat < 0xC000)
    := ⟨bigRam_ready 1, big_cycle, bigRam_inv 1, by decide +kernel⟩
/-- Contended and free reads: ROM, VRAM, cartridge RAM, working RAM and OAM under an INVALID or VRAM source, and the
answering clauses with no DMA. -/
theorem witness_ReadSlowPath : (Ready (bigDma .invalid) ∧ CycleOk 5 (bigDma .invalid) ∧ Inv (bigDma .invalid)) ∧
    (Ready (bigDma .vram) ∧ CycleOk 5 (bigDma .vram) ∧ Inv (bigDma .vram)) ∧
    (Ready big ∧ CycleOk 5 big ∧ Inv big) ∧
    (bigDma .invalid).romBlocked = true ∧ (bigDma .invalid).sramBlocked = true ∧ (bigDma .invalid).wramBlocked = true ∧
    (bigDma .invalid).banks.oamDmaSrc ≠ .off ∧ (bigDma .vram).banks.oamDmaSrc = .vram ∧ big.inputs.vramOk = true ∧
    big.inputs.oamOk = true ∧ big.banks.oamDmaSrc = .off ∧ big.wramBlocked = false :=
  ⟨⟨bigDma_ready _, bigDma_cycle _, bigDma_inv _⟩, ⟨bigDma_ready _, bigDma_cycle _, bigDma_inv _⟩,
   ⟨big_ready, big_cycle, big_inv⟩, by decide +kernel⟩

/-- The big machine with the LCD denying VRAM and OAM. -/
def bigDenied : State := { big with inputs := { big.inputs with vramOk := false, oamOk := false } }
theorem witness_denied : Ready bigDenied ∧ CycleOk 5 bigDenied ∧ Inv bigDenied ∧ bigDenied.inputs.vramOk = false ∧
    bigDenied.inputs.oamOk = false ∧ bigDenied.banks.oamDmaSrc = .off :=
  ⟨big_ready, big_cycle, inv_of_check (by decide +kernel), rfl, rfl, rfl⟩

theorem witness_IoReads : Ready big ∧ CycleOk 5 big ∧ Inv big ∧ big.geo.isCgb = true ∧
    (base 2 0 2 false).geo.isCgb = false ∧ (0x80 ≤ (0x80#8).toNat ∧ 0x80#8 ≠ 0xFF) ∧ (0x80 ≤ (0xFE#8).toNat ∧ 0xFE#8 ≠ 0xFF) ∧
    ((0x7F#8).toNat < 0x80 ∧ 0x7F#8 ∉ [0x01#8, 0x02, 0x04, 0x05, 0x06, 0x07, 0x0F, 0x46]) :=
  ⟨big_ready, big_cycle, big_inv, by decide +kernel⟩
/-- TIMA stopped, with an overflow due, in the reload window, and plain. -/
theorem witness_TimaRead : Ready big ∧ CycleOk 5 big ∧ big.timer.tac.getLsbD 2 = false ∧
    (let s : State := { big with timer := { big.timer with tac := 5 }, time := { big.time with tima := 5 } }
     Ready s ∧ s.timer.tac.getLsbD 2 = true ∧ s.time.tima ≠ disabled ∧ s.time.tima ≤ 5) ∧
    (let s : State := { big with timer := { big.timer with tac := 5, lastOvf := some 2 }, time := { big.time with tima := 4098 } }
     Ready s ∧ s.timer.lastOvf = some 2 ∧ (5 - 2 : Cycle).toNat < s.params.timaReloadWindow ∧
       ¬(6 - 2 : Cycle).toNat < s.params.timaReloadWindow ∧ ¬s.time.tima ≤ 6) :=
  ⟨big_ready, big_cycle, by decide +kernel, ⟨big_ready, by decide +kernel⟩, ⟨big_ready, by decide +kernel⟩⟩
theorem witness_WriteCompletes : Ready big ∧ CycleOk 5 big ∧ Inv big ∧
    ¬(big.geo.isCgb = true ∧ 0xFF70#16 = 0xFF70 ∧ big.geo.wramBanks.toNat ≤ max ((7#8).toNat % 8) 1) ∧
    (Ready (base 2 0 2 true) ∧ CycleOk 5 (base 2 0 2 true) ∧ Inv (base 2 0 2 true) ∧
      (base 2 0 2 true).geo.isCgb = true ∧ (base 2 0 2 true).geo.wramBanks.toNat ≤ max ((2#8).toNat % 8) 1) :=
  ⟨big_ready, big_cycle, big_inv, by decide +kernel, by refine ⟨?_, ?_, ?_⟩ <;> decide +kernel,
   by constructor <;> decide +kernel, inv_of_check (by decide +kernel), by decide +kernel⟩
theorem witness_WriteStores : Ready (bigRam 2) ∧ CycleOk 5 (bigRam 2) ∧ Inv (bigRam 2) ∧
    (bigRam 2).wramBlocked = false ∧ (bigRam 2).sramBlocked = false ∧ (bigRam 2).banks.ramFlags.getLsbD 1 = true ∧
    (bigRam 2).banks.ramFlags.getLsbD 2 = false ∧ (bigRam 2).geo.ramBanks ≠ 0 ∧ (bigRam 2).banks.oamDmaSrc = .off ∧
    (bigRam 2).inputs.vramOk = true ∧ (bigRam 2).inputs.oamOk = true ∧
    (0xF000 ≤ (0xFDFF#16).toNat ∧ (0xFDFF#16).toNat < 0xFE00) ∧ (0xFE00 ≤ (0xFE9F#16).toNat ∧ (0xFE9F#16).toNat < 0xFEA0) ∧
    (0xFF80 ≤ (0xFF80#16).toNat ∧ (0xFFFE#16).toNat < 0xFFFF) := ⟨bigRam_ready 2, big_cycle, bigRam_inv 2, by decide +kernel⟩
/-- Dropped and emitted: disabled, RTC with writes enabled, no RAM (the small machine); denied is `witness_denied`. -/
theorem witness_WriteStoresNothing : (Ready (bigRam 6) ∧ Inv (bigRam 6) ∧ (bigRam 6).banks.ramFlags.getLsbD 2 = true ∧
      (bigRam 6).banks.ramFlags.getLsbD 1 = true ∧ (bigRam 6).sramBlocked = false) ∧
    (Ready big ∧ CycleOk 5 big ∧ Inv big ∧ big.banks.ramFlags.getLsbD 1 = false ∧ big.sramBlocked = false) ∧
    (Ready (base 2 0 2 false) ∧ Inv (base 2 0 2 false) ∧ (base 2 0 2 false).geo.ramBanks = 0 ∧
      (base 2 0 2 false).banks.ramFlags.getLsbD 2 = false) ∧
    (0x7FFF#16).toNat < 0x8000 ∧ (0xFEA0 ≤ (0xFEA0#16).toNat ∧ (0xFEFF#16).toNat < 0xFF00) :=
  ⟨⟨bigRam_ready 6, bigRam_inv 6, by decide +kernel⟩, ⟨big_ready, big_cycle, big_inv, by decide +kernel⟩,
   ⟨by refine ⟨?_, ?_, ?_⟩ <;> decide +kernel, inv_of_check (by decide +kernel), by decide +kernel⟩, by decide +kernel⟩
/-- Every group contended (an INVALID source), with RAM disabled, enabled for writing, and with the clock; and a VRAM
source. -/
theorem witness_ContendedWrites : (Ready (bigDma .vram) ∧ CycleOk 5 (bigDma .vram) ∧ Inv (bigDma .vram) ∧
      (bigDma .vram).banks.oamDmaSrc = .vram) ∧
    ((0x8000 ≤ (0x8000#16).toNat ∧ (0x9FFF#16).toNat < 0xA000) ∧ (0xA000 ≤ (0xA000#16).toNat ∧ (0xBFFF#16).toNat < 0xC000)
      ∧ (0xC000 ≤ (0xC000#16).toNat ∧ (0xCFFF#16).toNat < 0xD000) ∧ (0xD000 ≤ (0xD000#16).toNat ∧ (0xDFFF#16).toNat < 0xE000)
      ∧ (0xE000 ≤ (0xE000#16).toNat ∧ (0xEFFF#16).toNat < 0xF000) ∧ (0xF000 ≤ (0xF000#16).toNat ∧ (0xFDFF#16).toNat < 0xFE00)
      ∧ (0xFE00 ≤ (0xFE00#16).toNat ∧ (0xFE9F#16).toNat < 0xFEA0)) ∧
    (Ready (bigDma .invalid) ∧ Inv (bigDma .invalid) ∧ (bigDma .invalid).wramBlocked = true ∧
      (bigDma .invalid).sramBlocked = true ∧ (bigDma .invalid).banks.oamDmaSrc ≠ .off ∧
      (bigDma .invalid).banks.ramFlags.getLsbD 1 = false) ∧
    (∀ f : BitVec 3, Ready ((bigRam f).setDmaSrc .invalid) ∧ Inv ((bigRam f).setDmaSrc .invalid) ∧
      ((bigRam f).setDmaSrc .invalid).sramBlocked = true ∧ ((bigRam f).setDmaSrc .invalid).banks.ramFlags = f) := by
  refine ⟨⟨bigDma_ready _, bigDma_cycle _, bigDma_inv _, rfl⟩, by decide, ⟨bigDma_ready _, bigDma_inv _, by decide +kernel⟩, ?_⟩
  intro f
  have h : ∀ f : BitVec 3, InvCheck ((bigRam f).setDmaSrc .invalid) := by decide +kernel
  exact ⟨big_ready, inv_of_check (h f), by rfl, rfl⟩
theorem witness_ReadAfterWrite : Ready (bigRam 3) ∧ CycleOk 5 (bigRam 3) ∧ Inv (bigRam 3) ∧
    (bigRam 3).banks.oamDmaSrc = .off ∧ (bigRam 3).banks.ramFlags = 3 ∧ (bigRam 3).geo.ramBanks ≠ 0 ∧
    (bigRam 3).inputs.vramOk = true ∧ (bigRam 3).inputs.oamOk = true ∧
    (0xFDFF#16).toNat = (0xDDFF#16).toNat + 0x2000 ∧ (0xDDFF#16).toNat < 0xDE00 ∧
    ∃ t, exec (.write 0xDDFF 7 5) (bigRam 3) = .next t ∧ (decide (t.cc ≤ 6) && decide ((6#32).toNat < t.params.rebaseLimit)) = true :=
  ⟨bigRam_ready 3, big_cycle, bigRam_inv 3, by decide +kernel, by decide +kernel, by decide +kernel, by decide +kernel,
   by decide +kernel, by decide +kernel, by decide +kernel, next_of (P := fun t => decide (t.cc ≤ 6) &&
     decide ((6#32).toNat < t.params.rebaseLimit)) (by decide +kernel)⟩
theorem witness_HramNeverContended : Ready (bigDma .invalid) ∧ CycleOk 5 (bigDma .invalid) ∧ Inv (bigDma .invalid) ∧
    (0x80 ≤ (0x80#8).toNat ∧ 0x80#8 ≠ 0xFF) ∧ (0x80 ≤ (0xFE#8).toNat ∧ 0xFE#8 ≠ 0xFF) :=
  ⟨bigDma_ready _, bigDma_cycle _, bigDma_inv _, by decide +kernel⟩
theorem witness_IoWrites : Ready big ∧ CycleOk 5 big ∧ Inv big ∧ big.geo.isCgb = true ∧
    ((0x81#8).getLsbD 7 = true ∧ (0x81#8).getLsbD 0 = true) ∧ (0x80#8).getLsbD 0 = false ∧
    max ((7#8).toNat % 8) 1 < big.geo.wramBanks.toNat ∧
    (base 2 0 2 true).geo.wramBanks.toNat ≤ max ((2#8).toNat % 8) 1 ∧ (base 2 0 2 false).geo.isCgb = false ∧
    ∃ t, exec (.ffWrite 0x01 7 5) big = .next t ∧ t.faulted.isNone = true :=
  ⟨big_ready, big_cycle, big_inv, by decide +kernel, by decide +kernel, by decide +kernel, by decide +kernel,
   by decide +kernel, by decide +kernel, next_of (P := fun t => t.faulted.isNone) (by decide +kernel)⟩
theorem witness_TimerWrites : Ready big ∧ CycleOk 5 big ∧ (0x04#8) ∈ [0x04#8, 0x05, 0x06, 0x07] ∧
    (0x07#8) ∈ [0x04#8, 0x05, 0x06, 0x07] := ⟨big_ready, big_cycle, by decide, by decide⟩
/-- Running with nothing due, running with one overflow due and the next one after the cycle, with three due, and
stopped. -/
theorem witness_TimerWritesCatchUp : (big.params.divWriteGlitch = false ∧ big.timer.tac.getLsbD 2 = false) ∧
    (let s : State := { big with timer := { big.timer with tac := 5 }, time := { big.time with tima := 21 } }
     Ready s ∧ CycleOk 20 s ∧ s.timer.tac.getLsbD 2 = true ∧ 20 < s.time.tima) ∧
    (let s : State := { big with timer := { big.timer with tac := 5, tima := 0xFF }, time := { big.time with tima := 16 } }
     Ready s ∧ CycleOk 20 s ∧ s.timer.tac.getLsbD 2 = true ∧ s.time.tima ≠ 0xFFFFFFFF ∧ s.time.tima ≤ 20 ∧
       20 < s.time.tima + BitVec.ofNat 32 ((256 - s.timer.tma.toNat) * 16)) ∧
    (let s : State := { big with timer := { big.timer with tac := 5, tma := 0xFF }, time := { big.time with tima := 16 } }
     Ready s ∧ CycleOk 48 s ∧ Params.legal s.params = true ∧ s.timer.tac.getLsbD 2 = true ∧ s.time.tima ≠ 0xFFFFFFFF ∧
       s.time.tima ≤ 48 ∧ (48 - s.time.tima : Cycle).toNat / ((256 - s.timer.tma.toNat) * 16) = 2) :=
  ⟨by decide +kernel, ⟨big_ready, by unfold CycleOk; decide +kernel, by decide +kernel⟩,
   ⟨big_ready, by unfold CycleOk; decide +kernel, by decide +kernel⟩,
   ⟨big_ready, by unfold CycleOk; decide +kernel, by decide +kernel⟩⟩
/-- A divider base before the cycle, and one that a REBASE has wrapped past it. -/
theorem witness_TimaScheduleIsNextOverflow : Params.legal {} = true ∧ (5#3).getLsbD 2 = true ∧
    (20#32).toNat < ({} : Params).rebaseLimit ∧
    (let u : TimerUnit := { divBase := 0, tima := 0xFE, timaLast := 20, tma := 0, tac := 5, lastOvf := none }
     (20 - u.divBase : Cycle).toNat + 256 * timaPeriod {} u.tac < 2 ^ 32 ∧
     timaSchedule {} u 20 = 48 ∧ (20 : Cycle) ≤ 47 ∧ (47 : Cycle) < timaSchedule {} u 20) ∧
    (let u : TimerUnit := { divBase := 0xFFFFFFF0, tima := 0xFE, timaLast := 20, tma := 0, tac := 5, lastOvf := none }
     (20 - u.divBase : Cycle).toNat + 256 * timaPeriod {} u.tac < 2 ^ 32 ∧ 20 < u.divBase ∧
     timaSchedule {} u 20 = 48) := by decide +kernel
/-- Nothing due, and each of the five units dispatched. -/
theorem witness_EventCompletes : (Ready big ∧ CycleOk 5 big ∧ Inv big ∧ (5 : Cycle) < minTime big.time) ∧
    ∀ u ∈ [SchedUnit.blit, .serial, .oamDma, .tima, .lyc],
      let s : State := State.setTime u 100 big
      Ready s ∧ CycleOk 100 s ∧ Inv s ∧ nextUnit s.time = u ∧ minTime s.time ≤ 100 := by
  refine ⟨⟨big_ready, big_cycle, big_inv, by decide +kernel⟩, ?_⟩
  intro u hu
  cases u <;> exact ⟨big_ready, by unfold CycleOk; decide +kernel, inv_of_check (by decide +kernel), by decide +kernel⟩
theorem witness_PriorityOrder : nextUnit { big.time with tima := 65664 } = SchedUnit.blit ∧
    ({ big.time with tima := 65664 } : Times).get .tima = minTime { big.time with tima := 65664 } := by decide +kernel
/-- BLIT due with TIMA at the same cycle (vector S18); LYC alone due. -/
theorem witness_EventFrameUnits :
    (let s : State := { big with time := { big.time with tima := 65664 } }
     Ready s ∧ CycleOk 65664 s ∧ s.time.blit ≤ 65664 ∧ s.time.blit ≤ s.time.serial ∧ s.time.blit ≤ s.time.oamDma ∧
       s.time.blit ≤ s.time.tima ∧ s.time.blit ≤ s.time.lyc) ∧
    (let s : State := { big with time := { big.time with blit := 135888 } }
     Ready s ∧ CycleOk 69775 s ∧ s.time.lyc ≤ 69775 ∧ s.time.lyc < s.time.blit ∧ s.time.lyc < s.time.serial ∧
       s.time.lyc < s.time.oamDma ∧ s.time.lyc < s.time.tima ∧ s.lyc.lycEnable = false) :=
  ⟨⟨big_ready, by unfold CycleOk; decide +kernel, by decide +kernel⟩,
   ⟨big_ready, by unfold CycleOk; decide +kernel, by decide +kernel⟩⟩
theorem witness_EventTima :
    let s : State := { big with timer := { big.timer with tac := 5 }, time := { big.time with tima := 16 } }
    Ready s ∧ CycleOk 16 s ∧ s.time.tima ≤ 16 ∧ s.time.tima < s.time.blit ∧ s.time.tima < s.time.serial ∧
      s.time.tima < s.time.oamDma ∧ s.time.tima ≤ s.time.lyc :=
  ⟨big_ready, by unfold CycleOk; decide +kernel, by decide +kernel⟩
/-- The last bit and an earlier bit. -/
theorem witness_EventSerial : ∀ n : BitVec 4, n = 1 ∨ n = 8 →
    let s : State := { big with serial := { big.serial with serialBits := n, sc := 0x81 },
                                time := { big.time with serial := 1000 } }
    Ready s ∧ CycleOk 1000 s ∧ s.time.serial ≤ 1000 ∧ s.time.serial < s.time.blit ∧ s.time.serial ≤ s.time.oamDma ∧
      s.time.serial ≤ s.time.tima ∧ s.time.serial ≤ s.time.lyc ∧ s.serial.serialBits ≠ 0 := by
  rintro n (rfl | rfl) <;> exact ⟨big_ready, by unfold CycleOk; decide +kernel, by decide +kernel⟩

/-- The big machine about to copy OAM byte `i` at cycle 204. -/
def bigCopy (i : Byte) : State :=
  { big with dma := { dmaReg := 0xC0, dmaPos := i }, time := { big.time with oamDma := 204 } }
/-- The first byte, the last, and a position already at its end. -/
theorem witness_EventOamDma : ∀ i : Byte, i = 0 ∨ i = 159 ∨ i = 160 →
    Ready (bigCopy i) ∧ CycleOk 204 (bigCopy i) ∧ Inv (bigCopy i) ∧ (bigCopy i).time.oamDma ≤ 204 ∧
      (bigCopy i).time.oamDma < (bigCopy i).time.blit ∧ (bigCopy i).time.oamDma < (bigCopy i).time.serial ∧
      (bigCopy i).time.oamDma ≤ (bigCopy i).time.tima ∧ (bigCopy i).time.oamDma ≤ (bigCopy i).time.lyc := by
  rintro i (rfl | rfl | rfl) <;>
    exact ⟨big_ready, by unfold CycleOk; decide +kernel, inv_of_check (by decide +kernel), by decide +kernel⟩
theorem witness_DmaSourceMap : (big.loaded = true ∧ BanksLegal big ∧ big.inputs.vramOk = true ∧
      big.banks.ramFlags.getLsbD 0 = false) ∧
    (BanksLegal (bigRam 1) ∧ (bigRam 1).banks.ramFlags.getLsbD 0 = true ∧ (bigRam 1).banks.ramFlags.getLsbD 2 = false ∧
      (bigRam 1).geo.ramBanks ≠ 0) ∧
    (BanksLegal (bigRam 5) ∧ (bigRam 5).banks.ramFlags.getLsbD 0 = true ∧ (bigRam 5).banks.ramFlags.getLsbD 2 = true) ∧
    (BanksLegal bigDenied ∧ bigDenied.inputs.vramOk = false) :=
  ⟨⟨by decide +kernel, big_inv.banks, by decide +kernel⟩, ⟨(bigRam_inv 1).banks, by decide +kernel⟩,
   ⟨(bigRam_inv 5).banks, by decide +kernel⟩, ⟨witness_denied.2.2.1.banks, rfl⟩⟩
theorem witness_DispatchMovesOn : Params.legal big.params = true ∧ Ready big ∧ Inv big ∧
    minTime big.time ≤ 65664 ∧ ∃ t, exec (.event 65664) big = .next t ∧ t.faulted.isNone = true :=
  ⟨by decide +kernel, big_ready, big_inv, by decide +kernel, next_of (P := fun t => t.faulted.isNone) (by decide +kernel)⟩
theorem witness_RunLoopCatchesUp : Params.legal big.params = true ∧ Ready big ∧ CycleOk 70000 big ∧ Inv big ∧
    ∃ t, runTo 3 70000 big = .next t ∧ decide (70000 < minTime t.time) = true :=
  ⟨by decide +kernel, big_ready, by unfold CycleOk; decide +kernel, big_inv,
   next_of (P := fun t => decide (70000 < minTime t.time)) (by decide +kernel)⟩
/-- Boundary geometries: the least legal, one bank too few, one WRAM bank too many; and both answers of ALLOC. -/
theorem witness_ResetLoadsCartridge : State.reset.faulted = none ∧ State.reset.inputs.alloc = true ∧
    (2 ≤ (2#16).toNat ∧ 2 ≤ (2#4).toNat ∧ (8#4).toNat ≤ 8) ∧ ¬2 ≤ (1#16).toNat ∧ ¬(9#4).toNat ≤ 8 ∧
    ({ State.reset with inputs := { Inputs.powerOn with alloc := false } } : State).inputs.alloc = false := by decide +kernel
theorem witness_SetBanks : big.faulted = none ∧ big.loaded = true ∧ (3#16).toNat < big.geo.romBanks.toNat ∧
    big.geo.romBanks.toNat ≤ (4#16).toNat ∧ (3#8).toNat < big.geo.ramBanks.toNat ∧ big.geo.ramBanks.toNat ≤ (4#8).toNat ∧
    big.geo.ramBanks ≠ 0 ∧ max ((15#16).toNat % 8) 1 < big.geo.wramBanks.toNat ∧ (base 2 0 2 true).geo.ramBanks = 0 ∧
    (base 2 0 2 true).geo.wramBanks.toNat ≤ max ((2#16).toNat % 8) 1 ∧ (1#16).toNat ≤ 1 ∧ 1 < (2#16).toNat := by
  decide +kernel
theorem witness_SetDmaSource : big.faulted = none ∧ big.loaded = true ∧
    (5#3, DmaSrc.off) ∈ [(0#3, DmaSrc.rom), (1#3, .sram), (2#3, .vram), (3#3, .wram), (4#3, .invalid), (5#3, .off)] ∧
    5 < (6#3).toNat := by decide +kernel
theorem witness_SetRombankThenRead : Ready big ∧ Inv big ∧ CycleOk 5 big ∧ (3#16).toNat < big.geo.romBanks.toNat ∧
    (0x4000 ≤ (0x4000#16).toNat ∧ (0x7FFF#16).toNat < 0x8000) ∧ big.romBlocked = false ∧
    ∃ t, exec (.setRombank 3) big = .next t ∧ (t.banks.rombank == 3) = true :=
  ⟨big_ready, big_inv, big_cycle, by decide +kernel, by decide +kernel, by decide +kernel,
   next_of (P := fun t => t.banks.rombank == 3) (by decide +kernel)⟩
theorem witness_SetRambankThenAccess : Ready big ∧ Inv big ∧ CycleOk 5 big ∧ 0xA000 ≤ (0xA000#16).toNat ∧
    (0xBFFF#16).toNat < 0xC000 ∧ big.sramBlocked = false ∧ big.geo.ramBanks ≠ 0 ∧
    (∃ t, exec (.setRambank 3 7) big = .next t ∧ t.faulted.isNone = true) ∧
    (Ready (base 2 0 2 true) ∧ Inv (base 2 0 2 true) ∧ (base 2 0 2 true).geo.ramBanks = 0 ∧
      ∃ t, exec (.setRambank 200 3) (base 2 0 2 true) = .next t ∧ t.faulted.isNone = true) :=
  ⟨big_ready, big_inv, big_cycle, by decide +kernel, by decide +kernel, by decide +kernel, by decide +kernel,
   next_of (P := fun t => t.faulted.isNone) (by decide +kernel),
   ⟨by refine ⟨?_, ?_, ?_⟩ <;> decide +kernel, inv_of_check (by decide +kernel), by decide +kernel,
    next_of (P := fun t => t.faulted.isNone) (by decide +kernel)⟩⟩
theorem witness_BankCommandsIdempotent :
    (∃ t, exec (.setRambank 3 7) big = .next t ∧ t.faulted.isNone = true) ∧ big.inputs.alloc = true ∧
    (∃ t, exec (.reset 2 0 2 true) big = .next t ∧ t.faulted.isNone = true) :=
  ⟨next_of (P := fun t => t.faulted.isNone) (by decide +kernel), rfl,
   next_of (P := fun t => t.faulted.isNone) (by decide +kernel)⟩
/-- A legal view at both ends of its range, an illegal one, and the default machine of the example. -/
theorem witness_MachineReset : big.faulted = none ∧ big.loaded = true ∧ big.params = {} ∧ big.inputs.ly = 0 ∧
    big.inputs.lyTime = 456 ∧ (big.inputs.ly.toNat ≤ big.params.lastLine ∧ 0 < big.inputs.lyTime.toNat ∧
      big.inputs.lyTime.toNat ≤ big.params.lineCycles) ∧ ¬(457#32).toNat ≤ big.params.lineCycles ∧
    ¬0 < (0#32).toNat ∧ ¬(154#8).toNat ≤ big.params.lastLine := by decide +kernel
theorem witness_SpeedAndLineCompare : Ready big ∧ CycleOk 5 big ∧ big.inputs.ly.toNat ≤ big.params.lastLine ∧
    0 < (big.inputs.lyTime - 455).toNat ∧ ¬0 < (big.inputs.lyTime - 456).toNat ∧
    (big.inputs.lyTime - 5).toNat ≤ big.params.lineCycles ∧ CycleOk 456 big :=
  ⟨big_ready, big_cycle, by decide +kernel, by decide +kernel, by decide +kernel, by decide +kernel,
   by unfold CycleOk; decide +kernel⟩
theorem witness_TriggersWithinFrame : Params.legal big.params = true ∧ 0 < big.params.lastLine ∧
    big.inputs.ly.toNat ≤ big.params.lastLine ∧ 0 < (big.inputs.lyTime - 455).toNat ∧
    (big.inputs.lyTime - 0).toNat ≤ (if big.ds then big.params.lineCycles * 2 else big.params.lineCycles) ∧
    big.lyc.lycReg.toNat ≤ big.params.lastLine ∧ big.params.lastLine < (154#8).toNat := by decide +kernel
theorem witness_RebaseMovesCycles : Ready { big with cc := 0x100 } ∧ (0x100 : Cycle) ≤ 0x100 ∧
    (∀ u : SchedUnit, (0x100 : Cycle) ≤ big.time.get u) ∧ ¬(0x101 : Cycle) ≤ 0x100 :=
  ⟨big_ready, by decide, by intro u; cases u <;> decide +kernel, by decide⟩
theorem witness_RebaseIsInvisible : Ready { big with cc := 0x100 } ∧ CycleOk 0x1234 { big with cc := 0x100 } ∧
    (∃ t, exec (.rebase 0x100) { big with cc := 0x100 } = .next t ∧ t.faulted.isNone = true) ∧
    Inv { big with cc := 0x100 } ∧ big.irq.eiCycle < 0x100 ∧
    (let s : State := { big with cc := 0x100, irq := { big.irq with eiCycle := 0x100 } }
     Ready s ∧ (0x100 : Cycle) ≤ s.irq.eiCycle ∧ ∃ t, exec (.rebase 0x100) s = .next t ∧ t.faulted.isNone = true) :=
  ⟨big_ready, by unfold CycleOk; decide +kernel, next_of (P := fun t => t.faulted.isNone) (by decide +kernel),
   inv_of_check (by decide +kernel), by decide +kernel, big_ready, by decide +kernel,
   next_of (P := fun t => t.faulted.isNone) (by decide +kernel)⟩
theorem witness_Queries : Ready big ∧ Inv big ∧ big.faulted = none ∧ big.loaded = true :=
  ⟨big_ready, big_inv, big_ready.1, big_ready.2.1⟩
theorem witness_InterruptCommands : Ready big ∧ CycleOk 5 big := ⟨big_ready, big_cycle⟩
theorem witness_RequestsHeldUntilCleared :
    let s : State := { big with irq := { big.irq with IF := 0x1F } }
    s.irq.IF.getLsbD 4 = true ∧ ∃ t, exec (.ffWrite 0x0F 0x0F 5) s = .next t ∧ (!t.irq.IF.getLsbD 4) = true :=
  ⟨by decide +kernel, next_of (P := fun t => !t.irq.IF.getLsbD 4) (by decide +kernel)⟩
/-- Each of the clauses happens: a counter going back, IME, halted, the EI record, the speed flag, the LYC registers. -/
theorem witness_WhoWritesControlState :
    (∃ t, exec .mreset { big with cc := 7 } = .next t ∧ decide (t.cc < 7) = true) ∧
    (∃ t, exec (.ei 5) big = .next t ∧ (t.irq.ime && decide (t.irq.eiCycle ≠ big.irq.eiCycle)) = true) ∧
    (∃ t, exec .halt big = .next t ∧ t.irq.halted = true) ∧
    (∃ t, exec (.setDs true 5) big = .next t ∧ t.ds = true) ∧
    (∃ t, exec (.lycCfg 9 true 5) big = .next t ∧ decide (t.lyc ≠ big.lyc) = true) :=
  ⟨next_of (P := fun t => decide (t.cc < 7)) (by decide +kernel),
   next_of (P := fun t => t.irq.ime && decide (t.irq.eiCycle ≠ big.irq.eiCycle)) (by decide +kernel),
   next_of (P := fun t => t.irq.halted) (by decide +kernel), next_of (P := fun t => t.ds) (by decide +kernel),
   next_of (P := fun t => decide (t.lyc ≠ big.lyc)) (by decide +kernel)⟩
theorem witness_GeometryAndRomFixed : Inv big ∧ (∀ rom ram wram cgb, Instr.setRombank0 2 ≠ .reset rom ram wram cgb) ∧
    (∃ t, exec (.setRombank0 2) big = .next t ∧ decide (t.banks.rombank0 ≠ big.banks.rombank0) = true) ∧
    (∃ t, exec (.ffWrite 0x70 5 5) big = .next t ∧ decide (t.banks.wrambankSel ≠ big.banks.wrambankSel) = true) ∧
    (∃ t, exec (.event 204) (bigCopy 0) = .next t ∧ decide (t.banks.oamDmaSrc ≠ big.banks.oamDmaSrc) = true) :=
  ⟨big_inv, by simp, next_of (P := fun t => decide (t.banks.rombank0 ≠ big.banks.rombank0)) (by decide +kernel),
   next_of (P := fun t => decide (t.banks.wrambankSel ≠ big.banks.wrambankSel)) (by decide +kernel),
   next_of (P := fun t => decide (t.banks.oamDmaSrc ≠ big.banks.oamDmaSrc)) (by decide +kernel)⟩
theorem witness_SaveStateLayout : Ready big := big_ready

/-- The small machine, and its header followed by zeros as a blob, whole and with the source code at 0x14 made 6. -/
def small : State := base 2 0 2 false
def zeros : List Byte := List.replicate 0x6200 0
theorem zeros_length : zeros.length = 0x6200 := List.length_replicate
def withBuf (b : List Byte) (s : State) : State := { s with inputs := { s.inputs with buf := b } }
def goodBlob : State := withBuf (headerBytes small ++ zeros) small
def badBlob : State := withBuf ((headerBytes small).set 0x14 6 ++ zeros) small
theorem small_ready : Ready small := by refine ⟨?_, ?_, ?_⟩ <;> decide +kernel
theorem small_inv : Inv small := inv_of_check (by decide +kernel)
theorem goodBlob_length : goodBlob.inputs.buf.length = 0x6240 := by
  rw [show goodBlob.inputs.buf = headerBytes small ++ zeros from rfl, List.length_append, headerBytes_length,
    zeros_length]
theorem badBlob_length : badBlob.inputs.buf.length = 0x6240 := by
  rw [show badBlob.inputs.buf = (headerBytes small).set 0x14 6 ++ zeros from rfl, List.length_append, List.length_set,
    headerBytes_length, zeros_length]
/-- The wrong size, and the right size with code 6. -/
theorem witness_LoadStateRejects : (small.faulted = none ∧ small.loaded = true ∧ small.inputs.buf.length = 0) ∧
    badBlob.faulted = none ∧ badBlob.loaded = true ∧
    badBlob.inputs.buf.length = 0x4240 + badBlob.geo.wramBanks.toNat * 0x1000 + badBlob.geo.ramBanks.toNat * 0x2000 ∧
    ¬(blobByte badBlob.inputs.buf 0x14).toNat ≤ 5 :=
  ⟨⟨small_ready.1, small_ready.2.1, rfl⟩, small_ready.1, small_ready.2.1, badBlob_length, by decide +kernel⟩
theorem witness_LoadStateRestores : goodBlob.faulted = none ∧ goodBlob.loaded = true ∧
    goodBlob.inputs.buf.length = 0x4240 + goodBlob.geo.wramBanks.toNat * 0x1000 + goodBlob.geo.ramBanks.toNat * 0x2000 ∧
    (let b := goodBlob.inputs.buf
     (blob32 b 0x00).toNat < goodBlob.params.rebaseLimit ∧ (blobByte b 0x04).extractLsb' 6 2 = 0#2 ∧
     (blobByte b 0x05).extractLsb' 5 3 = 0#3 ∧ (blob16 b 0x0C).toNat < goodBlob.geo.romBanks.toNat ∧
     (blob16 b 0x0E).toNat < goodBlob.geo.romBanks.toNat ∧
     (0 < goodBlob.geo.ramBanks.toNat → (blobByte b 0x10).toNat < goodBlob.geo.ramBanks.toNat) ∧
     (blobByte b 0x11).extractLsb' 3 5 = 0#5 ∧
     ((blobByte b 0x12).extractLsb' 3 5 = 0#5 ∧ max (blobByte b 0x12).toNat 1 < goodBlob.geo.wramBanks.toNat) ∧
     (blobByte b 0x13).extractLsb' 1 7 = 0#7 ∧ (blobByte b 0x14).toNat ≤ 5 ∧
     (blobByte b 0x15).toNat ≤ goodBlob.params.dmaBytes ∧ blob32 b 0x18 ≠ 0xFFFFFFFF ∧
     (blobByte b 0x3A).extractLsb' 3 5 = 0#5 ∧ (blobByte b 0x3D).toNat ≤ 8) :=
  ⟨small_ready.1, small_ready.2.1, goodBlob_length, by decide +kernel⟩
/-- The blob of the small machine, loaded at another cycle with a request pending. -/
theorem witness_SaveLoadRoundTrip : Ready small ∧ Inv small ∧ DmaInRange small ∧
    (∃ t, exec .saveState small = .next t ∧ t.outputs.buf = some (saveBlob small)) ∧
    (let u : State := withBuf (saveBlob small) { small with cc := 5, irq := { small.irq with IF := 4 } }
     u.faulted = none ∧ u.loaded = true ∧ u.params = small.params ∧ u.geo = small.geo ∧
       u.arena.rom = small.arena.rom ∧ u.arena.disr = small.arena.disr ∧ u.inputs.buf = saveBlob small ∧ u ≠ small) ∧
    (0 < (bigCopy 159).params.dmaBytes ∧ DmaInRange (bigCopy 159) ∧
      ∃ t, exec (.event 204) (bigCopy 159) = .next t ∧ (t.time.oamDma == disabled && t.dma.dmaPos == 160) = true) ∧
    (¬DmaInRange (bigCopy 200) ∧
      ∃ t, exec .mreset (bigCopy 200) = .next t ∧ (t.faulted.isNone && t.outputs.rsp != .bit false) = true) := by
  refine ⟨small_ready, small_inv, by unfold DmaInRange; decide +kernel, ⟨_, rfl, rfl⟩,
    ⟨small_ready.1, small_ready.2.1, rfl, rfl, rfl, rfl, rfl, ?_⟩,
    ⟨by decide +kernel, by unfold DmaInRange; decide +kernel,
     next_of (P := fun t => t.time.oamDma == disabled && t.dma.dmaPos == 160) (by decide +kernel)⟩,
    by unfold DmaInRange; decide +kernel,
    next_of (P := fun t => t.faulted.isNone && t.outputs.rsp != .bit false) (by decide +kernel)⟩
  intro h
  exact absurd (congrArg State.cc h) (by decide +kernel)

end Sys2Proof.Tests
end

section
/-! PROOFS. RESET (40_bank_window_ops.md R130): one equation for each of its three outcomes, and what a loaded cartridge
satisfies. -/

namespace Sys2Proof.Machine

theorem geometryLegal_iff (rom : BitVec 16) (wram : BitVec 4) :
    geometryLegal rom wram = true ↔ 2 ≤ rom.toNat ∧ 2 ≤ wram.toNat ∧ wram.toNat ≤ 8 := by
  simp [geometryLegal, and_assoc]

/-- The state a RESET with enough memory leaves (R130). -/
def State.afterReset (g : Geometry) (s : State) : State :=
  { s with
    loaded := true, running := false, geo := g
    arena := freshArena g s.inputs
    banks := freshBanks
    table := deriveTable s.params g freshBanks
    time := { s.time with oamDma := disabled }
    dma := { dmaReg := Config.freeByte s.draws, dmaPos := 0 }
    draws := s.draws + 1
    outputs := { rsp := .bit true } }

/-! ## The three outcomes -/

section
variable {s : State} {rom : BitVec 16} {ram : BitVec 8} {wram : BitVec 4} {cgb : Bool}

theorem exec_reset_of_illegal (hf : s.faulted = none) (hg : geometryLegal rom wram = false) :
    exec (.reset rom ram wram cgb) s =
      .next (s.raise (encode (.reset rom ram wram cgb)) .bank (.geometry rom ram wram cgb)) := by
  rw [exec_eq]
  exact runCommand_raise hf rfl (if_pos hg)

theorem exec_reset_of_alloc_fails (hf : s.faulted = none) (hg : geometryLegal rom wram = true)
    (ha : s.inputs.alloc = false) :
    exec (.reset rom ram wram cgb) s =
      .next { s with loaded := false, running := false, outputs := { rsp := .bit false } } := by
  rw [exec_eq]
  refine runCommand_ok hf rfl ?_
  simp [bodyOf, resetBody, hg, ha, State.respond, State.clearOutputs]

theorem exec_reset_of_alloc (hf : s.faulted = none) (hg : geometryLegal rom wram = true)
    (ha : s.inputs.alloc = true) :
    exec (.reset rom ram wram cgb) s =
      .next (s.afterReset { romBanks := rom, ramBanks := ram, wramBanks := wram, isCgb := cgb }) := by
  rw [exec_eq]
  refine runCommand_ok hf rfl ?_
  simp [bodyOf, resetBody, hg, ha]
  rfl

end

/-! ## A loaded cartridge -/

/-- Every region of a loaded cartridge is in canonical form (log 6). -/
theorem memoryCanonical_afterReset (g : Geometry) (s : State) : MemoryCanonical (s.afterReset g) := by
  intro r
  cases r with
  | disr => rfl
  | rom | vram | sram | wram | hi => exact Memory.ofCells_wf _

/-- The default banks exist in every legal geometry. -/
theorem banksLegal_afterReset {g : Geometry} (s : State) (h : geometryLegal g.romBanks g.wramBanks = true) :
    BanksLegal (s.afterReset g) := by
  obtain ⟨hrom, hwram, hmax⟩ := (geometryLegal_iff ..).mp h
  have hrambank : g.ramBanks.toNat = 0 ∨ 0 < g.ramBanks.toNat := Nat.eq_zero_or_pos _
  exact fun _ => ⟨hrom, hwram, hmax, Nat.zero_lt_of_lt hrom, hrom, hrambank, hwram⟩

/-- ROM holds the image of ROMIMG. -/
theorem byteAt_rom_afterReset {g : Geometry} {i : Nat} (s : State) (hi : i < g.romBanks.toNat * 0x4000) :
    (s.afterReset g).byteAt .rom i = Memory.read 0 s.inputs.romImg i :=
  (Memory.read_ofCells s.inputs.romImg i).trans (if_pos hi)

/-- Settles O41, by the three outcomes of RESET. -/
theorem resetLoadsCartridge : Obligations.ResetLoadsCartridge := by
  intro s rom ram wram cgb hf legal
  have hlegal : geometryLegal rom wram = true ↔ legal := geometryLegal_iff rom wram
  refine ⟨fun hg => ?illegal, fun hg ha => ?allocFails, fun hg ha => ?loads⟩
  case illegal =>
    exact ⟨_, exec_reset_of_illegal hf (Bool.eq_false_iff.mpr (mt hlegal.mp hg)), rfl⟩
  case allocFails => exact exec_reset_of_alloc_fails hf (hlegal.mpr hg) ha
  case loads =>
    let g : Geometry := { romBanks := rom, ramBanks := ram, wramBanks := wram, isCgb := cgb }
    exact ⟨s.afterReset g, exec_reset_of_alloc hf (hlegal.mpr hg) ha, rfl, fun _ => rfl,
      memoryCanonical_afterReset g s, banksLegal_afterReset s (hlegal.mpr hg),
      fun _ => byteAt_rom_afterReset (g := g) s, fun _ => rfl⟩

end Sys2Proof.Machine
end

section
/-! PROOFS. A step is `exec` of the decoded first command (10_state.md R21, log 1). -/

namespace Sys2Proof

/-- Decoding the packet of a well-formed command gives the command back (30_encoding.md R105). -/
theorem decode_encode {i : Instr} (h : i.wellFormed = true) : decode (encode i) = .ok i := by
  cases i with
  | reset rom ram wram cgb => exact Laws.RoundTrip.reset rom ram wram cgb h
  | setRombank0 bank => exact Laws.RoundTrip.setRombank0 bank h
  | setRombank bank => exact Laws.RoundTrip.setRombank bank h
  | setRambank bank flags => exact Laws.RoundTrip.setRambank bank flags h
  | setWrambank bank => exact Laws.RoundTrip.setWrambank bank h
  | setVrambank bank => exact Laws.RoundTrip.setVrambank bank h
  | setOamDmaSrc src => exact Laws.RoundTrip.setOamDmaSrc src h
  | read a c => exact Laws.RoundTrip.read a c h
  | write a v c => exact Laws.RoundTrip.write a v c h
  | ffRead p c => exact Laws.RoundTrip.ffRead p c h
  | ffWrite p v c => exact Laws.RoundTrip.ffWrite p v c h
  | event c => exact Laws.RoundTrip.event c h
  | nextEventTime => exact Laws.RoundTrip.nextEventTime h
  | mreset => exact Laws.RoundTrip.mreset h
  | setDs ds c => exact Laws.RoundTrip.setDs ds c h
  | rebase d => exact Laws.RoundTrip.rebase d h
  | lycCfg lyc en c => exact Laws.RoundTrip.lycCfg lyc en c h
  | takeFrame => exact Laws.RoundTrip.takeFrame h
  | halt => exact Laws.RoundTrip.halt h
  | ei c => exact Laws.RoundTrip.ei c h
  | di => exact Laws.RoundTrip.di h
  | ime => exact Laws.RoundTrip.ime h
  | halted => exact Laws.RoundTrip.halted h
  | irqIn mask c => exact Laws.RoundTrip.irqIn mask c h
  | stateSize => exact Laws.RoundTrip.stateSize h
  | saveState => exact Laws.RoundTrip.saveState h
  | loadState => exact Laws.RoundTrip.loadState h

/-- A packet survives the way through its number, as the host places it. -/
@[simp] theorem tablePacket_toNat (p : Packet) : tablePacket p.toNat = p := by
  simp [tablePacket]

namespace Machine

theorem step_of_no_command {s : State} (h : s.commands = []) : step s = .refused .noCommand := by
  simp only [step, State.takeCommand, h]

theorem step_of_decode {s : State} {k : Command} {rest : List Command} {i : Instr} (hc : s.commands = k :: rest)
    (hd : decode k.packet = .ok i) : step s = exec i { s with commands := rest, inputs := k.inputs } := by
  rw [step_cons hc, hd]

/-- A command that has just arrived is the one taken next, and taking it gives the same state back. -/
theorem State.takeCommand_withFetchWord (s : State) (nbits : Nat) (p : Packet) :
    (s.withFetchWord nbits p.toNat).takeCommand = some (p, s) := by
  simp [State.withFetchWord, State.pushCommand, State.takeCommand]

theorem step_withFetchWord_encode {i : Instr} (hw : i.wellFormed = true) (nbits : Nat) (s : State) :
    step (s.withFetchWord nbits (encode i).toNat) = exec i s := by
  simp only [step, State.takeCommand_withFetchWord, decode_encode hw]

/-- Settles O4, by what a step does with no command, with a command that decodes, and with one just placed. -/
theorem stepRunsDecodedCommand : Obligations.StepRunsDecodedCommand :=
  ⟨fun _ => step_of_no_command, fun _ _ _ _ => step_of_decode, fun s _ hw => step_withFetchWord_encode hw 64 s⟩

end Machine
end Sys2Proof
end

section
/-! PROOFS. What a command can do to the state, said once: every command that answers a next state is a chain of
elementary changes (`exec_changes`). A property of every command is then shown of each elementary change. -/

namespace Sys2Proof.Machine

/-! ## The states of the commands that write many registers at once -/

/-- The state a machine reset leaves (42_scheduler.md R212). -/
def State.machineReset (s : State) : State :=
  let r := (mresetRegisters { s with cc := 0, ds := false }).setDmaSrc .off
  { r with time := mresetTimes r, running := true }

/-- The state REBASE leaves (42_scheduler.md R216). -/
def State.rebased (d : Cycle) (s : State) : State :=
  { s with
    cc := s.cc - d
    time := { blit := rebaseTime d s.time.blit, serial := rebaseTime d s.time.serial,
              oamDma := rebaseTime d s.time.oamDma, tima := rebaseTime d s.time.tima,
              lyc := rebaseTime d s.time.lyc }
    timer := { s.timer with divBase := s.timer.divBase - d, timaLast := s.timer.timaLast - d,
                            lastOvf := s.timer.lastOvf.map (· - d) }
    irq := { s.irq with eiCycle := s.irq.eiCycle - d } }

/-- The state LOAD_STATE leaves on a blob it accepts (44_save_state.md R286). -/
def State.restored (s : State) : State :=
  State.wakeRule { (blobFields s.inputs.buf s).derive with running := true }

/-! ## The elementary changes -/

/-- Which command may change which bank-index register: the one named for it, a write of VBK or SVBK (41_bus_access.md
R190, R191), EVENT or MRESET for the DMA source, and LOAD_STATE. -/
structure BankWriter (i : Instr) (b b' : Banks) : Prop where
  rombank0 : b'.rombank0 ≠ b.rombank0 → (∃ n, i = .setRombank0 n) ∨ i = .loadState
  rombank : b'.rombank ≠ b.rombank → (∃ n, i = .setRombank n) ∨ i = .loadState
  ram : b'.rambank ≠ b.rambank ∨ b'.ramFlags ≠ b.ramFlags → (∃ n f, i = .setRambank n f) ∨ i = .loadState
  vrambank : b'.vrambank ≠ b.vrambank →
    (∃ n, i = .setVrambank n) ∨ (∃ v c, i = .ffWrite 0x4F v c) ∨ (∃ v c, i = .write 0xFF4F v c) ∨ i = .loadState
  wrambankSel : b'.wrambankSel ≠ b.wrambankSel →
    (∃ n, i = .setWrambank n) ∨ (∃ v c, i = .ffWrite 0x70 v c) ∨ (∃ v c, i = .write 0xFF70 v c) ∨ i = .loadState
  oamDmaSrc : b'.oamDmaSrc ≠ b.oamDmaSrc →
    (∃ d, i = .setOamDmaSrc d) ∨ (∃ c, i = .event c) ∨ i = .mreset ∨ i = .loadState

theorem BankWriter.of_oamDmaSrc {i : Instr} (b : Banks) (d : DmaSrc)
    (hi : (∃ d, i = .setOamDmaSrc d) ∨ (∃ c, i = .event c) ∨ i = .mreset ∨ i = .loadState) :
    BankWriter i b { b with oamDmaSrc := d } :=
  ⟨by simp, by simp, by simp, by simp, by simp, fun _ => hi⟩

/-- One elementary change that command `i` can make to the state. -/
inductive Change : Instr → State → State → Prop where
  /-- The fields no invariant speaks of: the fault register, the ports, the draw count, the frame flag. -/
  | free {i s} (f : Option FaultRecord) (o : Outputs) (d : Nat) (b : Bool) :
      Change i s { s with faulted := f, outputs := o, draws := d, frameDone := b }
  /-- The counter takes the cycle operand (42_scheduler.md R200). -/
  | tick {i s} (c : Cycle) (hcc : s.cc ≤ c) (hlimit : c.toNat < s.params.rebaseLimit) : Change i s { s with cc := c }
  /-- A store; never into ROM or the sentinel where the table is the derived one. -/
  | store {i s} (r : Region) (j : Nat) (v : Byte) (hj : j < r.length s.geo)
      (hr : TableDerived s → r ≠ .rom ∧ r ≠ .disr) :
      Change i s { s with arena := s.arena.store r j v }
  /-- New legal banks, with the table derived from them (20_memory.md R83). -/
  | banks {i s} (b : Banks) (hlegal : BanksLegal s → BanksLegal { s with banks := b })
      (hwriter : BankWriter i s.banks b) : Change i s (State.derive { s with banks := b })
  /-- New requests or enables, and the wake rule. -/
  | request {i s} (IF : BitVec 5) (IE : BitVec 8) :
      Change i s { s with irq := wakeIrq { s.irq with IF := IF, IE := IE } }
  | timer {i s} (u : TimerUnit) : Change i s { s with timer := u }
  /-- The serial unit, with at most eight bits left (10_state.md R35). -/
  | serial {i s} (u : SerialUnit) (hbits : s.serial.serialBits.toNat ≤ 8 → u.serialBits.toNat ≤ 8) :
      Change i s { s with serial := u }
  | triggers {i s} (serial tima lyc : Cycle) :
      Change i s { s with time := { s.time with serial := serial, tima := tima, lyc := lyc } }
  | blit {i s} (v : Cycle) (harmed : Params.legal s.params = true → v ≠ disabled) : Change i s (s.setTime .blit v)
  /-- A transfer begins (42_scheduler.md R234). -/
  | dmaStart {i s} (v : Byte) (c : Cycle) :
      Change i s (State.setTime .oamDma c { s with dma := { dmaReg := v, dmaPos := 0 } })
  /-- An armed transfer moves on by one byte, and is disarmed after the last (R236). -/
  | dmaStep {i s} (c : Cycle) (harmed : s.time.oamDma ≠ disabled) :
      Change i s (State.setTime .oamDma (if (s.dma.dmaPos + 1).toNat = s.params.dmaBytes then disabled else c)
        { s with dma := { s.dma with dmaPos := s.dma.dmaPos + 1 } })
  | halt {s} : Change .halt s (State.wakeRule { s with irq := { s.irq with halted := true } })
  | ei {s} (c : Cycle) : Change (.ei c) s { s with irq := { s.irq with ime := true, eiCycle := c } }
  | di {s} : Change .di s { s with irq := { s.irq with ime := false } }
  | speed {s} (ds : Bool) (c : Cycle) : Change (.setDs ds c) s { s with ds := ds }
  | lineCompare {s} (lyc : Byte) (en : Bool) (c : Cycle) :
      Change (.lycCfg lyc en c) s { s with lyc := { lycReg := lyc, lycEnable := en } }
  | rebase {s} (d : Cycle) (hcc : d ≤ s.cc) (htime : d ≤ minTime s.time) : Change (.rebase d) s (s.rebased d)
  | mreset {s} (hloaded : s.loaded = true) (hview : lyViewOk { s with cc := 0, ds := false } 0 = true) :
      Change .mreset s s.machineReset
  | reset {s} (rom : BitVec 16) (ram : BitVec 8) (wram : BitVec 4) (cgb : Bool) (hg : geometryLegal rom wram = true) :
      Change (.reset rom ram wram cgb) s
        (s.afterReset { romBanks := rom, ramBanks := ram, wramBanks := wram, isCgb := cgb })
  | resetFails {s} (rom : BitVec 16) (ram : BitVec 8) (wram : BitVec 4) (cgb : Bool) :
      Change (.reset rom ram wram cgb) s { s with loaded := false, running := false }
  | loadState {s} (hloaded : s.loaded = true) (hblob : firstBadField s.params s.geo s.inputs.buf = none) :
      Change .loadState s s.restored

/-- A chain of elementary changes. -/
def Changes (i : Instr) : State → State → Prop := Relation.ReflTransGen (Change i)

theorem Changes.refl (i : Instr) (s : State) : Changes i s s := Relation.ReflTransGen.refl

theorem Changes.tail {i : Instr} {s t u : State} (h : Changes i s t) (hc : Change i t u) : Changes i s u :=
  Relation.ReflTransGen.tail h hc

/-- What every elementary change of a command keeps, and composes, the chain keeps. -/
theorem Changes.lift {i : Instr} {R : State → State → Prop} (hrefl : ∀ s, R s s)
    (htrans : ∀ {s t u}, R s t → R t u → R s u) (hchange : ∀ {s t}, Change i s t → R s t) {s t : State}
    (h : Changes i s t) : R s t := by
  induction h with
  | refl => exact hrefl s
  | tail _ hc ih => exact htrans ih (hchange hc)

section
variable {i : Instr} {s t : State}

theorem Changes.raiseIrq (h : Changes i s t) (m : BitVec 5) : Changes i s (t.raiseIrq m) := h.tail (.request _ _)

theorem Changes.setTrigger (h : Changes i s t) {u : SchedUnit} (hblit : u ≠ .blit) (hdma : u ≠ .oamDma) (v : Cycle) :
    Changes i s (t.setTime u v) := by
  cases u with
  | blit => exact absurd rfl hblit
  | oamDma => exact absurd rfl hdma
  | serial | tima | lyc => exact h.tail (.triggers _ _ _)

theorem Changes.setTimer (h : Changes i s t) (u : TimerUnit) : Changes i s { t with timer := u } := h.tail (.timer u)

theorem Changes.setDraws (h : Changes i s t) (d : Nat) : Changes i s { t with draws := d } := h.tail (.free _ _ d _)

theorem Changes.setOutputs (h : Changes i s t) (o : Outputs) : Changes i s { t with outputs := o } :=
  h.tail (.free _ o _ _)

theorem Changes.setSerial (h : Changes i s t) (u : SerialUnit)
    (hbits : t.serial.serialBits.toNat ≤ 8 → u.serialBits.toNat ≤ 8) : Changes i s { t with serial := u } :=
  h.tail (.serial u hbits)

/-- A read changes the draw count only. -/
theorem Changes.read (h : Changes i s t) {u : State} (hu : u = { t with draws := u.draws }) : Changes i s u := by
  rw [hu]; exact h.setDraws _

theorem Changes.tick (h : Changes i s t) {c : Cycle} {u : State} (ht : t.tick c = .ok u) : Changes i s u := by
  obtain ⟨hcc, hlimit, rfl⟩ := State.tick_inv ht
  exact h.tail (.tick c hcc hlimit)

/-- A store through the bound check. -/
theorem Changes.writeArena (h : Changes i s t) {r : Region} {j : Int} {v : Byte} {u : State}
    (hw : t.writeArena r j v = .ok u)
    (hr : TableDerived t → r ≠ .rom ∧ r ≠ .disr) : Changes i s u := by
  obtain ⟨h0, h1, rfl⟩ := State.writeArena_inv hw
  exact h.tail (.store r j.toNat v (by omega) hr)

/-- A contended store through the bound check. -/
theorem Changes.writeArenaMaybe (h : Changes i s t) {r : Region} {j : Int} {v : Byte} {u : State}
    (hw : t.writeArenaMaybe r j v = .ok u)
    (hr : TableDerived t → r ≠ .rom ∧ r ≠ .disr) : Changes i s u := by
  obtain ⟨h0, h1, rfl⟩ := State.writeArenaMaybe_inv hw
  exact (h.tail (.store r j.toNat _ (by omega) hr)).setDraws _

/-! ## The units -/

theorem Changes.timaOverflow (h : Changes i s t) (c : Cycle) : Changes i s (timaOverflow c t) :=
  ((h.setTimer _).raiseIrq _).setTrigger (by decide) (by decide) _

theorem Changes.timaCatchUp (n : Nat) (h : Changes i s t) (c : Cycle) : Changes i s (timaCatchUp n c t) := by
  induction n generalizing t with
  | zero => exact h
  | succ n ih =>
    unfold Machine.timaCatchUp
    split
    · exact ih (h.timaOverflow _)
    · exact h

theorem Changes.timaRun (h : Changes i s t) (c : Cycle) : Changes i s (timaRun c t) := by
  unfold Machine.timaRun
  split
  · exact ((h.timaCatchUp _ c).setTimer _).setTimer _
  · exact h.setTimer _

theorem Changes.divGlitch (h : Changes i s t) (c : Cycle) : Changes i s (divGlitch c t) := by
  unfold Machine.divGlitch
  split_ifs
  · exact h.timaOverflow c
  · exact h.setTimer _
  · exact h

theorem Changes.rescheduleTima (h : Changes i s t) (c : Cycle) : Changes i s (t.rescheduleTima c) :=
  h.setTrigger (by decide) (by decide) _

theorem Changes.timerDivWrite (h : Changes i s t) (c : Cycle) : Changes i s (timerDivWrite c t) :=
  (((h.timaRun c).divGlitch c).setTimer _).rescheduleTima c

theorem Changes.timerTimaWrite (h : Changes i s t) (v : Byte) (c : Cycle) : Changes i s (timerTimaWrite v c t) :=
  ((h.timaRun c).setTimer _).rescheduleTima c

theorem Changes.timerTmaWrite (h : Changes i s t) (v : Byte) (c : Cycle) : Changes i s (timerTmaWrite v c t) :=
  ((h.timaRun c).setTimer _).rescheduleTima c

theorem Changes.timerTacWrite (h : Changes i s t) (v : BitVec 3) (c : Cycle) : Changes i s (timerTacWrite v c t) :=
  ((h.timaRun c).setTimer _).rescheduleTima c

theorem Changes.serialControl (h : Changes i s t) (v : Byte) (c : Cycle) : Changes i s (serialControl v c t) := by
  unfold Machine.serialControl
  have hsc := h.setSerial { t.serial with sc := v } id
  split
  · exact (hsc.setSerial { t.serial with sc := v, serialBits := 8 } fun _ => le_rfl).setTrigger (by decide) (by decide) _
  · exact (hsc.setSerial { t.serial with sc := v, serialBits := 0 } fun _ => Nat.zero_le _).setTrigger (by decide)
      (by decide) _

/-- One bit clock leaves at most eight bits (log 12). -/
theorem serialBitsLeft_le {s : State} (h : s.serial.serialBits.toNat ≤ 8) : (serialBitsLeft s).1.toNat ≤ 8 := by
  unfold serialBitsLeft
  split
  · have hlt : (Config.freeByte s.draws).toNat % 9 < 9 := Nat.mod_lt _ (by decide)
    simp only [BitVec.toNat_ofNat]
    omega
  · next h0 =>
    have hpos : s.serial.serialBits.toNat ≠ 0 := fun e => h0 (BitVec.eq_of_toNat_eq e)
    show (s.serial.serialBits - 1).toNat ≤ 8
    bv_omega

theorem serialBitsLeft_state (s : State) : (serialBitsLeft s).2 = { s with draws := (serialBitsLeft s).2.draws } := by
  unfold serialBitsLeft
  split <;> rfl

theorem Changes.serialDispatch (h : Changes i s t) (c : Cycle) : Changes i s (serialDispatch c t) := by
  have hleft : ∀ u, Changes i s u → Changes i s { (serialBitsLeft u).2 with
      serial := { (serialBitsLeft u).2.serial with serialBits := (serialBitsLeft u).1 } } := fun u hu =>
    (hu.read (serialBitsLeft_state u)).setSerial _ fun hle => serialBitsLeft_le (by rwa [serialBitsLeft_state u] at hle)
  have hshift := hleft _ (h.setSerial { t.serial with sb := (t.serial.sb <<< 1) ||| 1 } id)
  unfold Machine.serialDispatch
  dsimp only
  split
  · refine ((hshift.setSerial _ ?bits).raiseIrq _).setTrigger (u := .serial) (by decide) (by decide) _
    exact id
  · exact hshift.setTrigger (by decide) (by decide) _

/-- Recording a DMA source, by a command that may. -/
theorem Changes.setDmaSrc (h : Changes i s t) (d : DmaSrc)
    (hi : (∃ d, i = .setOamDmaSrc d) ∨ (∃ c, i = .event c) ∨ i = .mreset ∨ i = .loadState) :
    Changes i s (t.setDmaSrc d) :=
  h.tail (.banks { t.banks with oamDmaSrc := d } id (.of_oamDmaSrc _ d hi))

theorem Changes.dmaDispatch (h : Changes i s t) {c : Cycle} {u : State} (hi : ∃ c, i = .event c)
    (harmed : t.time.oamDma ≠ disabled) (hd : dmaDispatch c t = .ok u) : Changes i s u := by
  unfold Machine.dmaDispatch at hd
  obtain ⟨⟨v, u1⟩, h1, hd⟩ := Except.bind_ok_inv hd
  obtain ⟨u2, h2, hd⟩ := Except.bind_ok_inv hd
  have hsrc : Changes i s
      (if t.banks.oamDmaSrc = dmaClass t.dma.dmaReg then t else t.setDmaSrc (dmaClass t.dma.dmaReg)) := by
    split
    · exact h
    · exact h.setDmaSrc _ (.inr (.inl hi))
  have hstored := (hsrc.read (dmaSourceByte_state h1)).writeArena h2 fun _ => by decide
  have harmed2 : u2.time.oamDma ≠ disabled := by
    obtain ⟨-, -, rfl⟩ := State.writeArena_inv h2
    rw [dmaSourceByte_state h1]
    split
    · exact harmed
    · exact harmed
  have hstep := hstored.tail (.dmaStep (c + BitVec.ofNat 32 u2.params.dmaByteCycles) harmed2)
  dsimp only at hd
  split at hd
  · next hend =>
    cases hd
    rw [if_pos hend] at hstep
    exact hstep.setDmaSrc .off (.inr (.inl hi))
  · next hmore =>
    cases hd
    rwa [if_neg hmore] at hstep

theorem Changes.lycDispatch (h : Changes i s t) (c : Cycle) : Changes i s (lycDispatch c t) := by
  unfold Machine.lycDispatch
  split
  · exact (h.raiseIrq _).setTrigger (by decide) (by decide) _
  · exact h.setTrigger (by decide) (by decide) _

/-- The frame event is armed again one frame on, which no legal cycle value wraps (42_scheduler.md R200). -/
theorem frame_later_ne_disabled {p : Params} (hp : Params.legal p = true) {c : Cycle} (hc : c.toNat < p.rebaseLimit)
    (ds : Bool) : c + BitVec.ofNat 32 (dsShift ds p.frameCycles) ≠ disabled := by
  simp only [Params.legal, Bool.and_eq_true, decide_eq_true_eq] at hp
  have hshift : dsShift ds p.frameCycles ≤ 0x2000000 := by cases ds <;> simp only [dsShift] <;> simp <;> omega
  bv_omega

theorem Changes.blitDispatch (h : Changes i s t) {c : Cycle} (hc : c.toNat < t.params.rebaseLimit) :
    Changes i s (blitDispatch c t) :=
  (h.tail (.free t.faulted t.outputs t.draws true)).tail (.blit _ fun hp => frame_later_ne_disabled hp hc _)

/-- OAMDMA is dispatched only while it is armed, for BLIT comes before it among units at DISABLED (R202). -/
theorem oamDma_armed_of_nextUnit {x : Times} (h : nextUnit x = .oamDma) : x.oamDma ≠ disabled := by
  have hmin := get_nextUnit x
  have hblit : x.blit ≠ minTime x := fun e => by simp [nextUnit, e] at h
  have hle := minTime_le x .blit
  rw [h] at hmin
  simp only [Times.get] at hmin hle
  bv_omega

theorem Changes.dispatchDue (h : Changes i s t) {c : Cycle} {u : State} (hi : ∃ c, i = .event c)
    (hc : c.toNat < t.params.rebaseLimit) (hd : dispatchDue c t = .ok u) : Changes i s u := by
  unfold Machine.dispatchDue at hd
  split at hd
  · next hdue =>
    cases hu : nextUnit t.time with
    | blit => rw [hu] at hd; cases hd; exact h.blitDispatch (by rw [BitVec.le_def] at hdue; omega)
    | serial => rw [hu] at hd; cases hd; exact h.serialDispatch _
    | oamDma => rw [hu] at hd; exact h.dmaDispatch hi (oamDma_armed_of_nextUnit hu) hd
    | tima => rw [hu] at hd; cases hd; exact h.timaOverflow _
    | lyc => rw [hu] at hd; cases hd; exact h.lycDispatch _
  · cases hd; exact h

/-! ## Bus writes -/

theorem Changes.selectRombank0 (h : Changes i s t) {b : BitVec 16} {u : State} (hd : selectRombank0 b t = .ok u)
    (hi : (∃ n, i = .setRombank0 n) ∨ i = .loadState) : Changes i s u := by
  unfold Machine.selectRombank0 at hd
  split at hd
  · cases hd
  · next hb =>
    cases hd
    refine h.tail (.banks _ (fun hl hloaded => ?_) ⟨fun _ => hi, by simp, by simp, by simp, by simp, by simp⟩)
    obtain ⟨hrom2, hwram2, hwram8, -, hrom, hram, hwram⟩ := hl hloaded
    exact ⟨hrom2, hwram2, hwram8, Nat.lt_of_not_le hb, hrom, hram, hwram⟩

theorem Changes.selectRombank (h : Changes i s t) {b : BitVec 16} {u : State} (hd : selectRombank b t = .ok u)
    (hi : (∃ n, i = .setRombank n) ∨ i = .loadState) : Changes i s u := by
  unfold Machine.selectRombank at hd
  split at hd
  · cases hd
  · next hb =>
    cases hd
    refine h.tail (.banks _ (fun hl hloaded => ?_) ⟨by simp, fun _ => hi, by simp, by simp, by simp, by simp⟩)
    obtain ⟨hrom2, hwram2, hwram8, hrom0, -, hram, hwram⟩ := hl hloaded
    exact ⟨hrom2, hwram2, hwram8, hrom0, Nat.lt_of_not_le hb, hram, hwram⟩

theorem Changes.selectRambank (h : Changes i s t) {b : BitVec 8} {f : BitVec 3} {u : State}
    (hd : selectRambank b f t = .ok u) (hi : (∃ n f, i = .setRambank n f) ∨ i = .loadState) : Changes i s u := by
  unfold Machine.selectRambank at hd
  split at hd
  · cases hd
  · next hb =>
    cases hd
    refine h.tail (.banks _ (fun hl hloaded => ?_) ⟨by simp, by simp, fun _ => hi, by simp, by simp, by simp⟩)
    obtain ⟨hrom2, hwram2, hwram8, hrom0, hrom, -, hwram⟩ := hl hloaded
    refine ⟨hrom2, hwram2, hwram8, hrom0, hrom, ?_, hwram⟩
    by_cases hzero : t.geo.ramBanks = 0
    · exact .inl (congrArg BitVec.toNat hzero)
    · exact .inr (Nat.lt_of_not_le fun hle => hb ⟨hzero, hle⟩)

theorem Changes.selectVrambank (h : Changes i s t) {b : BitVec 16} {u : State} (hd : selectVrambank b t = .ok u)
    (hi : (∃ n, i = .setVrambank n) ∨ (∃ v c, i = .ffWrite 0x4F v c) ∨ (∃ v c, i = .write 0xFF4F v c) ∨
      i = .loadState) : Changes i s u := by
  unfold Machine.selectVrambank at hd
  split at hd
  · cases hd
  · cases hd; exact h.tail (.banks _ id ⟨by simp, by simp, by simp, fun _ => hi, by simp, by simp⟩)

theorem Changes.selectWrambank (h : Changes i s t) {b : BitVec 16} {u : State} (hd : selectWrambank b t = .ok u)
    (hi : (∃ n, i = .setWrambank n) ∨ (∃ v c, i = .ffWrite 0x70 v c) ∨ (∃ v c, i = .write 0xFF70 v c) ∨
      i = .loadState) : Changes i s u := by
  unfold Machine.selectWrambank at hd
  split at hd
  · cases hd
  · next hb =>
    cases hd
    refine h.tail (.banks _ (fun hl hloaded => ?_) ⟨by simp, by simp, by simp, by simp, fun _ => hi, by simp⟩)
    obtain ⟨hrom2, hwram2, hwram8, hrom0, hrom, hram, -⟩ := hl hloaded
    exact ⟨hrom2, hwram2, hwram8, hrom0, hrom, hram, Nat.lt_of_not_le hb⟩

/-- The offsets of VBK and SVBK are those of 30_encoding.md R108. -/
theorem ioReg_vbk_svbk : ∀ (cgb : Bool) (p : Byte),
    (ioReg cgb p = .vbk → p = 0x4F) ∧ (ioReg cgb p = .svbk → p = 0x70) := by decide +kernel

theorem Changes.ffWrite (h : Changes i s t) {p v : Byte} {c : Cycle} {u : State} (hd : ffWrite p v c t = .ok u)
    (hi : i = .ffWrite p v c ∨ i = .write (0xFF#8 ++ p) v c) : Changes i s u := by
  obtain ⟨hvbk, hsvbk⟩ := ioReg_vbk_svbk t.geo.isCgb p
  unfold Machine.ffWrite at hd
  split at hd
  case h_1 => cases hd; exact h.setSerial _ id
  case h_2 => cases hd; exact h.serialControl v c
  case h_3 => cases hd; exact h.timerDivWrite c
  case h_4 => cases hd; exact h.timerTimaWrite v c
  case h_5 => cases hd; exact h.timerTmaWrite v c
  case h_6 => cases hd; exact h.timerTacWrite _ c
  case h_7 => cases hd; exact h.tail (.request _ _)
  case h_8 => cases hd; exact h.tail (.dmaStart v _)
  case h_9 hp =>
    obtain rfl := hvbk hp
    exact h.selectVrambank hd (.inr (hi.imp (fun e => ⟨v, c, e⟩) fun e => .inl ⟨v, c, e⟩))
  case h_10 hp =>
    obtain rfl := hsvbk hp
    exact h.selectWrambank hd (.inr (hi.imp (fun e => ⟨v, c, e⟩) fun e => .inl ⟨v, c, e⟩))
  case h_11 => cases hd; exact h.tail (.request _ _)
  case h_12 => exact h.writeArena hd fun _ => by decide
  case h_13 => cases hd; exact h.setOutputs _

/-- No write window maps ROM or the sentinel (20_memory.md R66, R86). -/
theorem baseW_writable {g : Geometry} {b : Banks} {n : Nat} {r : Region} {bias : Int} (h : baseW g b n = .win r bias) :
    r ≠ .rom ∧ r ≠ .disr := by
  unfold baseW ramW at h
  split_ifs at h <;> (cases h; decide)

theorem deriveWAt_writable {p : Params} {g : Geometry} {b : Banks} {n : Nat} {r : Region} {bias : Int}
    (h : deriveWAt p g b n = .win r bias) : r ≠ .rom ∧ r ≠ .disr := by
  unfold deriveWAt at h
  split_ifs at h <;> exact baseW_writable h

theorem Changes.contendedWrite (h : Changes i s t) {a : Addr} {v : Byte} {c : Cycle} {u : State}
    (hd : contendedWrite a v c t = .ok u) : Changes i s u := by
  unfold Machine.contendedWrite at hd
  split at hd
  · next hw => exact h.writeArenaMaybe hd fun _ => baseW_writable hw
  · cases hd; exact h.setDraws _
  · cases hd; exact (h.setDraws _).setOutputs _

theorem Changes.slowWriteVram (h : Changes i s t) {a : Addr} {v : Byte} {u : State} (hd : slowWriteVram a v t = .ok u) :
    Changes i s u := by
  unfold Machine.slowWriteVram at hd
  split_ifs at hd
  · exact h.writeArenaMaybe hd fun _ => by decide
  · exact h.writeArena hd fun _ => by decide
  · cases hd; exact h

theorem Changes.slowWriteEcho (h : Changes i s t) {a : Addr} {v : Byte} {u : State} (hd : slowWriteEcho a v t = .ok u) :
    Changes i s u := by
  unfold Machine.slowWriteEcho at hd
  split_ifs at hd
  · exact h.writeArenaMaybe hd fun _ => by decide
  · exact h.writeArena hd fun _ => by decide

theorem Changes.slowWriteOam (h : Changes i s t) {a : Addr} {v : Byte} {u : State} (hd : slowWriteOam a v t = .ok u) :
    Changes i s u := by
  unfold Machine.slowWriteOam at hd
  split_ifs at hd
  · exact h.writeArenaMaybe hd fun _ => by decide
  · exact h.writeArena hd fun _ => by decide
  · cases hd; exact h

/-- An address of the I/O page is its offset under 0xFF. -/
theorem io_address {a : Addr} (h : ¬a.toNat < 0xFF00) : 0xFF#8 ++ a.extractLsb' 0 8 = a := by
  have hhigh : a.extractLsb' 8 8 = 0xFF#8 := by
    apply BitVec.eq_of_toNat_eq
    have := a.isLt
    simp only [BitVec.extractLsb'_toNat, Nat.shiftRight_eq_div_pow, BitVec.toNat_ofNat]
    omega
  rw [← hhigh, le16_join]

theorem Changes.slowWrite (h : Changes i s t) {a : Addr} {v : Byte} {c : Cycle} {u : State}
    (hd : slowWrite a v c t = .ok u) (hi : i = .write a v c) : Changes i s u := by
  unfold Machine.slowWrite at hd
  split_ifs at hd with _ _ _ _ _ _ _ hio
  · cases hd; exact h.setOutputs _
  · exact h.slowWriteVram hd
  · exact h.contendedWrite hd
  · cases hd; exact h.setOutputs _
  · exact h.contendedWrite hd
  · exact h.slowWriteEcho hd
  · exact h.slowWriteOam hd
  · cases hd; exact h
  · exact h.ffWrite hd (.inr (by rw [io_address hio, hi]))

theorem Changes.busWrite (h : Changes i s t) {a : Addr} {v : Byte} {c : Cycle} {u : State}
    (hd : busWrite a v c t = .ok u) (hi : i = .write a v c) (hloaded : t.loaded = true) : Changes i s u := by
  unfold Machine.busWrite at hd
  split at hd
  · next hw =>
    exact h.writeArena hd fun htable => deriveWAt_writable (by rwa [State.writeEntry_of_derived (htable hloaded)] at hw)
  · cases hd; exact h
  · exact h.slowWrite hd hi

/-! ## The commands -/

/-- Under legal parameters and a legal LY view the frame event of 42_scheduler.md R230 lies close to its cycle, so the
schedule does not wrap onto DISABLED. -/
theorem blitSchedule_ne_disabled {s : State} {c : Cycle} (hp : Params.legal s.params = true)
    (hview : lyViewOk s c = true) (hc : c.toNat < s.params.rebaseLimit) : blitSchedule s c ≠ disabled := by
  simp only [lyViewOk, Bool.and_eq_true, decide_eq_true_eq] at hview
  simp only [Params.legal, Bool.and_eq_true, decide_eq_true_eq] at hp
  have hdouble : ∀ x, dsShift s.ds x ≤ 2 * x := by intro x; cases s.ds <;> simp only [dsShift] <;> simp <;> omega
  have hline := hdouble s.params.lineCycles
  have hlater := hdouble ((s.params.lastLine - s.inputs.ly.toNat) * s.params.lineCycles
    + s.params.vblankLine * s.params.lineCycles)
  have hrest : (s.params.lastLine - s.inputs.ly.toNat) * s.params.lineCycles ≤ 256 * 0x1000 :=
    Nat.mul_le_mul (by omega) (by omega)
  have hvblank : s.params.vblankLine * s.params.lineCycles ≤ 256 * 0x1000 := Nat.mul_le_mul (by omega) (by omega)
  unfold blitSchedule
  generalize dsShift s.ds ((s.params.lastLine - s.inputs.ly.toNat) * s.params.lineCycles
    + s.params.vblankLine * s.params.lineCycles) = later at *
  generalize dsShift s.ds s.params.frameCycles = frame
  generalize dsShift s.ds s.params.lineCycles = line at *
  dsimp only
  split <;> bv_omega

/-- A command with lifecycle checks runs with a cartridge only (10_state.md R39). -/
theorem loaded_of_passes {g : Gate} {s : State} (h : g.passes s = true) (hg : g = .loaded ∨ g = .running) :
    s.loaded = true := by
  obtain rfl | rfl := hg
  · exact h
  · exact ((Bool.and_eq_true _ _).mp h).1

theorem resetBody_changes {rom : BitVec 16} {ram : BitVec 8} {wram : BitVec 4} {cgb : Bool}
    (h : resetBody rom ram wram cgb s = .ok t) : Changes (.reset rom ram wram cgb) s t := by
  simp only [resetBody] at h
  split_ifs at h with hlegal
  · cases h
    exact ((Changes.refl _ s).tail (.resetFails rom ram wram cgb)).setOutputs _
  · cases h
    exact ((Changes.refl _ s).tail (.reset rom ram wram cgb ((Bool.not_eq_false _).mp hlegal))).setOutputs _

theorem setDsBody_changes {ds : Bool} {c : Cycle} (h : setDsBody ds c s = .ok t) : Changes (.setDs ds c) s t := by
  obtain ⟨s1, htick, hrest⟩ := Except.bind_ok_inv h
  obtain ⟨s2, hcheck, hend⟩ := Except.bind_ok_inv hrest
  obtain ⟨hview, rfl⟩ := State.checkLyView_inv hcheck
  obtain ⟨hcc, hlimit, rfl⟩ := State.tick_inv htick
  cases hend
  have hspeed := ((Changes.refl _ s).tail (.tick c hcc hlimit)).tail (.speed ds c)
  have hblit := hspeed.tail (.blit _ fun hp => blitSchedule_ne_disabled hp hview hlimit)
  exact hblit.setTrigger (u := .lyc) (by decide) (by decide) _

theorem lycCfgBody_changes {lyc : Byte} {en : Bool} {c : Cycle} (h : lycCfgBody lyc en c s = .ok t) :
    Changes (.lycCfg lyc en c) s t := by
  unfold lycCfgBody at h
  obtain ⟨s1, htick, hrest⟩ := Except.bind_ok_inv h
  obtain ⟨s2, hcheck, hend⟩ := Except.bind_ok_inv hrest
  obtain ⟨-, rfl⟩ := State.checkLyView_inv hcheck
  cases hend
  exact (((Changes.refl _ s).tick htick).tail (.lineCompare lyc en c)).setTrigger (by decide) (by decide) _

theorem rebaseBody_changes {d : Cycle} (h : rebaseBody d s = .ok t) : Changes (.rebase d) s t := by
  unfold rebaseBody at h
  split at h
  · cases h
  · next hd =>
    cases h
    rw [not_or, BitVec.not_lt, BitVec.not_lt] at hd
    exact (Changes.refl _ s).tail (.rebase d hd.1 hd.2)

theorem loadBody_changes (hloaded : s.loaded = true) (h : loadBody s = .ok t) : Changes .loadState s t := by
  unfold loadBody at h
  split at h
  · cases h; exact (Changes.refl _ s).setOutputs _
  · split at h
    · cases h
    · next hblob => cases h; exact ((Changes.refl _ s).tail (.loadState hloaded hblob)).setOutputs _

/-- A command's body that answers a state is a chain of elementary changes. -/
theorem body_changes {j : Instr} {s t : State} (hg : (gateOf j).passes s = true) (h : bodyOf j s = .ok t) :
    Changes j s t := by
  have hstart := Changes.refl j s
  cases j with
  | reset rom ram wram cgb => exact resetBody_changes h
  | setRombank0 bank => exact hstart.selectRombank0 h (.inl ⟨bank, rfl⟩)
  | setRombank bank => exact hstart.selectRombank h (.inl ⟨bank, rfl⟩)
  | setRambank bank flags => exact hstart.selectRambank h (.inl ⟨bank, flags, rfl⟩)
  | setWrambank bank => exact hstart.selectWrambank h (.inl ⟨bank, rfl⟩)
  | setVrambank bank => exact hstart.selectVrambank h (.inl ⟨bank, rfl⟩)
  | setOamDmaSrc src =>
    cases hd : DmaSrc.ofCode src.toNat with
    | none => simp [bodyOf, hd] at h
    | some d =>
      simp only [bodyOf, hd] at h
      cases h
      exact hstart.setDmaSrc d (.inl ⟨src, rfl⟩)
  | read a c =>
    obtain ⟨s1, htick, hrest⟩ := Except.bind_ok_inv h
    obtain ⟨⟨v, s2⟩, hread, hend⟩ := Except.bind_ok_inv hrest
    cases hend
    exact ((hstart.tick htick).read (busRead_state hread)).setOutputs _
  | write a v c =>
    obtain ⟨s1, htick, hwrite⟩ := Except.bind_ok_inv h
    have hloaded : s1.loaded = true := (keeps_tick htick).loaded.trans (loaded_of_passes hg (.inr rfl))
    exact (hstart.tick htick).busWrite hwrite rfl hloaded
  | ffRead p c =>
    obtain ⟨s1, htick, hrest⟩ := Except.bind_ok_inv h
    obtain ⟨⟨v, s2⟩, hread, hend⟩ := Except.bind_ok_inv hrest
    cases hend
    exact ((hstart.tick htick).read (ffRead_state hread)).setOutputs _
  | ffWrite p v c =>
    obtain ⟨s1, htick, hwrite⟩ := Except.bind_ok_inv h
    exact (hstart.tick htick).ffWrite hwrite (.inl rfl)
  | event c =>
    obtain ⟨s1, htick, hrest⟩ := Except.bind_ok_inv h
    obtain ⟨s2, hdue, hend⟩ := Except.bind_ok_inv hrest
    obtain ⟨hcc, hlimit, rfl⟩ := State.tick_inv htick
    cases hend
    exact ((hstart.tail (.tick c hcc hlimit)).dispatchDue ⟨c, rfl⟩ hlimit hdue).setOutputs _
  | mreset =>
    obtain ⟨s1, hcheck, hend⟩ := Except.bind_ok_inv h
    obtain ⟨hview, rfl⟩ := State.checkLyView_inv hcheck
    cases hend
    exact hstart.tail (.mreset (loaded_of_passes hg (.inl rfl)) hview)
  | setDs ds c => exact setDsBody_changes h
  | rebase d => exact rebaseBody_changes h
  | lycCfg lyc en c => exact lycCfgBody_changes h
  | ei c =>
    obtain ⟨s1, htick, hend⟩ := Except.bind_ok_inv h
    cases hend
    exact (hstart.tick htick).tail (.ei c)
  | irqIn m c =>
    obtain ⟨s1, htick, hend⟩ := Except.bind_ok_inv h
    cases hend
    exact (hstart.tick htick).raiseIrq m
  | loadState => exact loadBody_changes (loaded_of_passes hg (.inl rfl)) h
  | takeFrame => cases h; exact hstart.tail (.free _ _ _ false)
  | halt => cases h; exact hstart.tail .halt
  | di => cases h; exact hstart.tail .di
  | nextEventTime | ime | halted | stateSize | saveState => cases h; exact hstart.setOutputs _

/-- Every command that answers a next state is a chain of elementary changes, whether it is refused, raises or runs its
body. -/
theorem exec_changes {j : Instr} {s t : State} (h : exec j s = .next t) : Changes j s t := by
  have hstart := Changes.refl j s
  obtain ⟨-, rfl⟩ | ⟨-, id, info, rfl⟩ | ⟨-, hg, hb⟩ := exec_next h
  · exact hstart.setOutputs _
  · exact hstart.tail (.free _ _ _ _)
  · exact Relation.ReflTransGen.trans (hstart.setOutputs {}) (body_changes (by exact hg) hb)

/-- A step is a chain of elementary changes of the state with its command taken; where the packet does not decode, of
those every command can make. -/
theorem step_changes {s t : State} (h : step s = .next t) :
    ∃ j k rest, Changes j { s with commands := rest, inputs := k } t := by
  obtain ⟨k, rest, -, ⟨j, -, he⟩ | ⟨_, -, he⟩⟩ := step_cases h
  · exact ⟨j, k.inputs, rest, exec_changes he⟩
  · refine ⟨.ime, k.inputs, rest, ?_⟩
    obtain ⟨-, rfl⟩ | ⟨-, id, info, rfl⟩ | ⟨-, -, hb⟩ := runCommand_next he
    · exact (Changes.refl _ _).setOutputs _
    · exact (Changes.refl _ _).tail (.free _ _ _ _)
    · cases hb

end

end Sys2Proof.Machine
end

section
/-! PROOFS. The blob of 44_save_state.md R281: the conditions of its column "valid on load" by name, and what a saved
state's blob reads as, field by field. -/

namespace Sys2Proof.Machine

/-- The conditions of R281's column "valid on load". -/
structure BlobValid (p : Params) (g : Geometry) (b : List Byte) : Prop where
  counter : (blob32 b 0x00).toNat < p.rebaseLimit
  flags : (blobByte b 0x04).toNat < 0x40
  requests : (blobByte b 0x05).toNat < 0x20
  rombank0 : blob16 b 0x0C < g.romBanks
  rombank : blob16 b 0x0E < g.romBanks
  rambank : g.ramBanks = 0 ∨ blobByte b 0x10 < g.ramBanks
  ramFlags : (blobByte b 0x11).toNat < 8
  wrambankSel : (blobByte b 0x12).toNat < 8 ∧ wramBankOf ((blobByte b 0x12).extractLsb' 0 3) < g.wramBanks.toNat
  vrambank : (blobByte b 0x13).toNat < 2
  oamDmaSrc : (blobByte b 0x14).toNat ≤ 5
  dmaPos : (blobByte b 0x15).toNat ≤ p.dmaBytes
  blit : blob32 b 0x18 ≠ disabled
  tac : (blobByte b 0x3A).toNat < 8
  serialBits : (blobByte b 0x3D).toNat ≤ 8

/-- LOAD_STATE finds no bad field exactly in a valid blob. -/
theorem firstBadField_eq_none_iff {p : Params} {g : Geometry} {b : List Byte} :
    firstBadField p g b = none ↔ BlobValid p g b := by
  simp only [firstBadField, Option.map_eq_none_iff, List.find?_eq_none, blobChecks, List.forall_mem_cons,
    Bool.not_eq_true, Bool.not_eq_false', decide_eq_true_eq]
  constructor
  · rintro ⟨h1, h2, h3, h4, h5, h6, h7, h8, h9, h10, h11, h12, h13, h14, -⟩
    exact ⟨h1, h2, h3, h4, h5, h6, h7, h8, h9, h10, h11, h12, h13, h14⟩
  · rintro ⟨h1, h2, h3, h4, h5, h6, h7, h8, h9, h10, h11, h12, h13, h14⟩
    exact ⟨h1, h2, h3, h4, h5, h6, h7, h8, h9, h10, h11, h12, h13, h14, by simp⟩

/-! ## The header of a saved state -/

/-- The header of blob `b` holds the registers of `s`, each at its offset (R281). -/
structure HeaderHolds (b : List Byte) (s : State) : Prop where
  cc : blob32 b 0x00 = s.cc
  flags : blobByte b 0x04 = flagsByte s
  IF : blobByte b 0x05 = s.irq.IF.setWidth 8
  IE : blobByte b 0x06 = s.irq.IE
  lycReg : blobByte b 0x07 = s.lyc.lycReg
  eiCycle : blob32 b 0x08 = s.irq.eiCycle
  rombank0 : blob16 b 0x0C = s.banks.rombank0
  rombank : blob16 b 0x0E = s.banks.rombank
  rambank : blobByte b 0x10 = s.banks.rambank
  ramFlags : blobByte b 0x11 = s.banks.ramFlags.setWidth 8
  wrambankSel : blobByte b 0x12 = s.banks.wrambankSel.setWidth 8
  vrambank : blobByte b 0x13 = s.banks.vrambank.setWidth 8
  oamDmaSrc : blobByte b 0x14 = s.banks.oamDmaSrc.code
  dmaPos : blobByte b 0x15 = s.dma.dmaPos
  dmaReg : blobByte b 0x16 = s.dma.dmaReg
  blit : blob32 b 0x18 = s.time.blit
  serialTime : blob32 b 0x1C = s.time.serial
  oamDma : blob32 b 0x20 = s.time.oamDma
  timaTime : blob32 b 0x24 = s.time.tima
  lycTime : blob32 b 0x28 = s.time.lyc
  divBase : blob32 b 0x2C = s.timer.divBase
  timaLast : blob32 b 0x30 = s.timer.timaLast
  lastOvf : blob32 b 0x34 = s.timer.lastOvf.getD 0
  tima : blobByte b 0x38 = s.timer.tima
  tma : blobByte b 0x39 = s.timer.tma
  tac : blobByte b 0x3A = s.timer.tac.setWidth 8
  sb : blobByte b 0x3B = s.serial.sb
  sc : blobByte b 0x3C = s.serial.sc
  serialBits : blobByte b 0x3D = s.serial.serialBits.setWidth 8

/-- SAVE_STATE writes every register at its offset. -/
theorem headerHolds_saveBlob (s : State) : HeaderHolds (saveBlob s) s := by
  constructor
  all_goals
    simp only [blob32, blob16, blobByte_saveBlob, Nat.reduceAdd, Nat.reduceLT]
    simp [blobByte, headerBytes, le32, le16, le16_join, le32_join]

/-- Six flags in a byte: each at its bit, the two high bits clear (R281, offset 0x04). -/
theorem flags_bits : ∀ b5 b4 b3 b2 b1 b0 : Bool,
    let f : Byte := 0#2 ++ BitVec.ofBool b5 ++ BitVec.ofBool b4 ++ BitVec.ofBool b3 ++ BitVec.ofBool b2
      ++ BitVec.ofBool b1 ++ BitVec.ofBool b0
    f.getLsbD 0 = b0 ∧ f.getLsbD 1 = b1 ∧ f.getLsbD 2 = b2 ∧ f.getLsbD 3 = b3 ∧ f.getLsbD 4 = b4 ∧ f.getLsbD 5 = b5 ∧
      f.toNat < 0x40 := by decide

/-- A field narrower than its byte comes back whole. -/
theorem extractLsb'_setWidth_byte {n : Nat} (hn : n ≤ 8) (x : BitVec n) : (x.setWidth 8).extractLsb' 0 n = x := by
  rw [← BitVec.setWidth_eq_extractLsb' hn, BitVec.setWidth_setWidth_of_le _ hn, BitVec.setWidth_eq]

/-! ## The round trip -/

section
variable {s : State}

theorem saveBlob_length (s : State) : (saveBlob s).length = stateSize s.geo := by
  simp only [saveBlob, List.length_append, headerBytes_length, regionBytes_length, Region.length, stateSize]

/-- A region's bytes, found at their offset in a list, give the region back. -/
theorem blobRegion_append (hm : MemoryCanonical s) (r : Region) {off : Nat} {pre post : List Byte}
    (hoff : pre.length = off) : blobRegion r s.geo off (pre ++ (regionBytes r s ++ post)) = s.arena.get r := by
  rw [blobRegion, ← hoff, List.drop_left, List.take_left' (regionBytes_length r s), regionBytes,
    Memory.ofBytes_toBytes (hm r)]

/-- The Backing Store of a saved state's blob is that state's, where ROM and the sentinel are. -/
theorem blobArena_saveBlob (hm : MemoryCanonical s) {m : Arena} (hrom : m.rom = s.arena.rom)
    (hdisr : m.disr = s.arena.disr) : blobArena s.geo (saveBlob s) m = s.arena := by
  have hhi : blobRegion .hi s.geo 0x40 (saveBlob s) = s.arena.hi := by
    simp only [saveBlob, List.append_assoc]
    exact blobRegion_append hm .hi (headerBytes_length s)
  have hvram : blobRegion .vram s.geo 0x240 (saveBlob s) = s.arena.vram := by
    rw [saveBlob, List.append_assoc, List.append_assoc]
    exact blobRegion_append hm .vram (by simp [Region.length])
  have hwram : blobRegion .wram s.geo 0x4240 (saveBlob s) = s.arena.wram := by
    rw [saveBlob, List.append_assoc]
    exact blobRegion_append hm .wram (by simp [Region.length])
  have hsram : blobRegion .sram s.geo (0x4240 + Region.length s.geo .wram) (saveBlob s) = s.arena.sram := by
    rw [saveBlob, ← List.append_nil (regionBytes .sram s)]
    exact blobRegion_append hm .sram (by simp [Region.length]; omega)
  rw [blobArena, hrom, hdisr, hhi, hvram, hwram, hsram]

/-- A saved state's blob is valid for its cartridge: the invariants are the conditions of R281. -/
theorem blobValid_saveBlob (hs : Inv s) (hl : s.loaded = true) (hr : s.running = true) (hd : DmaInRange s) :
    BlobValid s.params s.geo (saveBlob s) := by
  have hh := headerHolds_saveBlob s
  obtain ⟨-, -, -, hrom0, hrom, hram, hwram⟩ := hs.banks hl
  have hsel := extractLsb'_setWidth_byte (by decide) s.banks.wrambankSel
  constructor
  case counter => rw [hh.cc]; exact hs.counter hr
  case flags => rw [hh.flags]; exact (flags_bits ..).2.2.2.2.2.2
  case requests => rw [hh.IF]; have := s.irq.IF.isLt; simp; omega
  case rombank0 => rw [hh.rombank0]; exact hrom0
  case rombank => rw [hh.rombank]; exact hrom
  case rambank => rw [hh.rambank]; exact hram.imp (fun h => BitVec.eq_of_toNat_eq h) id
  case ramFlags => rw [hh.ramFlags]; have := s.banks.ramFlags.isLt; simp; omega
  case wrambankSel =>
    rw [hh.wrambankSel, hsel]
    exact ⟨by have := s.banks.wrambankSel.isLt; simp; omega, hwram⟩
  case vrambank => rw [hh.vrambank]; have := s.banks.vrambank.isLt; simp; omega
  case oamDmaSrc => rw [hh.oamDmaSrc]; exact (ofCode_code _).2
  case dmaPos => rw [hh.dmaPos]; exact hd.1
  case blit => rw [hh.blit]; exact hs.blit hr
  case tac => rw [hh.tac]; have := s.timer.tac.isLt; simp; omega
  case serialBits => rw [hh.serialBits]; have := hs.serial; simp [SerialBitsLegal] at this ⊢; omega

/-- The fields of a saved state's blob are that state's. -/
theorem blobFields_saveBlob (hm : MemoryCanonical s) {u : State} (hparams : u.params = s.params) (hgeo : u.geo = s.geo)
    (hrom : u.arena.rom = s.arena.rom) (hdisr : u.arena.disr = s.arena.disr) :
    blobFields (saveBlob s) u = { s with
      loaded := u.loaded, running := u.running, table := u.table, faulted := u.faulted, inputs := u.inputs,
      outputs := u.outputs, commands := u.commands, draws := u.draws } := by
  have hh := headerHolds_saveBlob s
  obtain ⟨hds, hime, hhalted, hframe, hlyc, hovf, -⟩ := flags_bits s.timer.lastOvf.isSome s.lyc.lycEnable s.frameDone
    s.irq.halted s.irq.ime s.ds
  have hlast : (if s.timer.lastOvf.isSome then some (s.timer.lastOvf.getD 0) else none) = s.timer.lastOvf := by
    cases s.timer.lastOvf <;> rfl
  simp only [blobFields, hh.cc, hh.flags, hh.IF, hh.IE, hh.lycReg, hh.eiCycle, hh.rombank0, hh.rombank, hh.rambank,
    hh.ramFlags, hh.wrambankSel, hh.vrambank, hh.oamDmaSrc, hh.dmaPos, hh.dmaReg, hh.blit, hh.serialTime, hh.oamDma,
    hh.timaTime, hh.lycTime, hh.divBase, hh.timaLast, hh.lastOvf, hh.tima, hh.tma, hh.tac, hh.sb, hh.sc,
    hh.serialBits, hgeo, hparams, blobArena_saveBlob hm hrom hdisr, flagsByte, hds, hime, hhalted, hframe, hlyc, hovf,
    hlast, (ofCode_code s.banks.oamDmaSrc).1, Option.getD_some, extractLsb'_setWidth_byte, Nat.reduceLeDiff]

/-- LOAD_STATE of a blob that is valid for the cartridge (R286). -/
theorem loadBody_of_valid (hlen : s.inputs.buf.length = stateSize s.geo)
    (hv : BlobValid s.params s.geo s.inputs.buf) : loadBody s = .ok (s.restored.respond (.bit true)) := by
  have hlen' : hasLength s.inputs.buf (stateSize s.geo) = true := (hasLength_iff _ _).mpr hlen
  rw [loadBody, if_neg (by simp [hlen']), firstBadField_eq_none_iff.mpr hv]
  rfl

end

end Sys2Proof.Machine
end

section
/-! PROOFS. The invariants of the block: each elementary change keeps each of them, and so does every step. -/

namespace Sys2Proof.Machine

section
variable {i : Instr} {s t : State}

theorem Change.params_eq (h : Change i s t) : t.params = s.params := by
  cases h <;> rfl

/-- The window table stays the derivation of the bank registers (10_state.md R26, 20_memory.md R83). -/
theorem Change.tableDerived (h : Change i s t) (hs : TableDerived s) : TableDerived t := by
  cases h with
  | banks | mreset | reset | loadState => exact fun _ => rfl
  | resetFails => exact fun h => absurd h Bool.false_ne_true
  | _ => exact hs

/-- Settles O12, for each elementary change keeps the table derived. -/
theorem tableStaysDerived : Obligations.TableStaysDerived := by
  intro s t hs h
  obtain ⟨i, inputs, rest, hc⟩ := step_changes h
  exact hc.lift (R := fun s t => TableDerived s → TableDerived t) (fun _ => id) (fun f g => g ∘ f)
    Change.tableDerived hs

theorem memoryCanonical_restored (hs : MemoryCanonical s) : MemoryCanonical s.restored := by
  intro r
  cases r with
  | rom => exact hs .rom
  | disr => exact hs .disr
  | vram | sram | wram | hi => exact Memory.ofBytes_wf _ (List.length_take_le _ _)

theorem Change.memoryCanonical (h : Change i s t) (hs : MemoryCanonical s) : MemoryCanonical t := by
  cases h with
  | store r j v hj => exact Arena.store_wf v hj hs
  | reset => exact memoryCanonical_afterReset _ s
  | loadState => exact memoryCanonical_restored hs
  | _ => exact hs

theorem Change.runningLoaded (h : Change i s t) (hs : RunningLoaded s) : RunningLoaded t := by
  cases h with
  | mreset hloaded | loadState hloaded => exact fun _ => hloaded
  | reset => exact fun _ => rfl
  | resetFails => exact fun h => absurd h Bool.false_ne_true
  | _ => exact hs

/-- The wake rule ends every change of a request, of an enable and of `halted` (43_irq_halt.md R266, R267). -/
theorem Change.haltQuiet (h : Change i s t) (hs : HaltQuiet s) : HaltQuiet t := by
  cases h with
  | request | halt | loadState => exact wakeIrq_quiet _
  | mreset => exact fun h => absurd h Bool.false_ne_true
  | _ => exact hs

theorem Change.sentinelConstant (h : Change i s t) (htable : TableDerived s) (hs : SentinelConstant s) :
    SentinelConstant t := by
  cases h with
  | store r j v _ hr => exact fun n => by rw [Arena.byte_store_other _ _ (by simp [(hr htable).2])]; exact hs n
  | reset => exact fun _ => rfl
  | _ => exact hs

/-- A blob LOAD_STATE accepts holds legal banks (R281). -/
theorem banksLegal_restored (hs : BanksLegal s) (hb : BlobValid s.params s.geo s.inputs.buf) :
    BanksLegal s.restored := by
  intro hloaded
  obtain ⟨hrom, hwram, hmax, -⟩ := hs hloaded
  exact ⟨hrom, hwram, hmax, hb.rombank0, hb.rombank, hb.rambank.imp (congrArg BitVec.toNat) id, hb.wrambankSel.2⟩

theorem Change.banksLegal (h : Change i s t) (hs : BanksLegal s) : BanksLegal t := by
  cases h with
  | banks b hlegal => exact hlegal hs
  | reset rom ram wram cgb hg => exact banksLegal_afterReset s hg
  | resetFails => exact fun h => absurd h Bool.false_ne_true
  | loadState _ hblob => exact banksLegal_restored hs (firstBadField_eq_none_iff.mp hblob)
  | _ => exact hs

/-- REBASE moves no trigger onto DISABLED, for it moves none below 0 (42_scheduler.md R216). -/
theorem rebaseTime_eq_disabled_iff {d c : Cycle} (h : d ≤ c) : rebaseTime d c = disabled ↔ c = disabled := by
  unfold rebaseTime
  split
  · rfl
  · next hc =>
    refine iff_of_false (fun he => hc ?_) hc
    bv_omega

theorem rebaseLimit_pos {p : Params} (hp : Params.legal p = true) : 0 < p.rebaseLimit := by
  simp only [Params.legal, Bool.and_eq_true, decide_eq_true_eq] at hp
  omega

theorem Change.blitArmed (h : Change i s t) (hp : Params.legal s.params = true) (hs : BlitArmed s) : BlitArmed t := by
  cases h with
  | blit v harmed => exact fun _ => harmed hp
  | rebase d _ htime =>
    have hle : d ≤ s.time.blit := by
      have := minTime_le s.time .blit
      rw [BitVec.le_def] at htime ⊢
      exact htime.trans this
    exact fun hr => mt (rebaseTime_eq_disabled_iff hle).mp (hs hr)
  | mreset _ hview =>
    exact fun _ => blitSchedule_ne_disabled hp hview (rebaseLimit_pos hp)
  | reset => exact fun h => absurd h Bool.false_ne_true
  | resetFails => exact fun h => absurd h Bool.false_ne_true
  | loadState _ hblob => exact fun _ => (firstBadField_eq_none_iff.mp hblob).blit
  | _ => exact hs

theorem Change.counterBelowLimit (h : Change i s t) (hp : Params.legal s.params = true) (hs : CounterBelowLimit s) :
    CounterBelowLimit t := by
  cases h with
  | tick c _ hlimit => exact fun _ => hlimit
  | rebase d hcc =>
    intro hr
    have := hs hr
    show (s.cc - d).toNat < s.params.rebaseLimit
    bv_omega
  | mreset => exact fun _ => rebaseLimit_pos hp
  | reset => exact fun h => absurd h Bool.false_ne_true
  | resetFails => exact fun h => absurd h Bool.false_ne_true
  | loadState _ hblob => exact fun _ => (firstBadField_eq_none_iff.mp hblob).counter
  | _ => exact hs

theorem Change.serialBitsLegal (h : Change i s t) (hs : SerialBitsLegal s) : SerialBitsLegal t := by
  cases h with
  | serial u hbits => exact hbits hs
  | mreset => exact Nat.zero_le _
  | loadState _ hblob =>
    have hbits := (firstBadField_eq_none_iff.mp hblob).serialBits
    show ((blobByte s.inputs.buf 0x3D).extractLsb' 0 4).toNat ≤ 8
    simp only [BitVec.extractLsb'_toNat, Nat.shiftRight_zero]
    omega
  | _ => exact hs

/-- An elementary change keeps the invariants together. -/
theorem Change.inv (h : Change i s t) (hp : Params.legal s.params = true) (hs : Inv s) : Inv t where
  table := h.tableDerived hs.table
  memory := h.memoryCanonical hs.memory
  banks := h.banksLegal hs.banks
  running := h.runningLoaded hs.running
  halt := h.haltQuiet hs.halt
  blit := h.blitArmed hp hs.blit
  counter := h.counterBelowLimit hp hs.counter
  serial := h.serialBitsLegal hs.serial
  sentinel := h.sentinelConstant hs.table hs.sentinel

/-- Settles O10, for each elementary change keeps the invariants. -/
theorem invariantsKept : Obligations.InvariantsKept := by
  intro s t hp hs h
  obtain ⟨i, inputs, rest, hc⟩ := step_changes h
  have hstart : Inv { s with commands := rest, inputs := inputs } :=
    ⟨hs.table, hs.memory, hs.banks, hs.running, hs.halt, hs.blit, hs.counter, hs.serial, hs.sentinel⟩
  refine hc.lift (R := fun s t => Params.legal s.params = true → Inv s → Inv t ∧ t.params = s.params)
    (fun _ _ hs => ⟨hs, rfl⟩) (fun hst htu hp hs => ?_) (fun h hp hs => ⟨h.inv hp hs, h.params_eq⟩) hp hstart
  obtain ⟨ht, hpt⟩ := hst hp hs
  obtain ⟨hu, hpu⟩ := htu (by rw [hpt]; exact hp) ht
  exact ⟨hu, hpu.trans hpt⟩

end
end Sys2Proof.Machine
end

section
/-! PROOFS. Who writes what: which commands change the control registers, the geometry and ROM, the bank-index registers
and the DMA position. -/

namespace Sys2Proof.Machine

/-- Which command may change which control register. -/
structure ControlWriter (i : Instr) (s t : State) : Prop where
  cc : s.cc ≤ t.cc ∨ i = .mreset ∨ (∃ d, i = .rebase d) ∨ i = .loadState
  ime : t.irq.ime = s.irq.ime ∨ (∃ c, i = .ei c) ∨ i = .di ∨ i = .mreset ∨ i = .loadState
  halted : (t.irq.halted = true → s.irq.halted = true) ∨ i = .halt ∨ i = .loadState
  eiCycle : t.irq.eiCycle = s.irq.eiCycle ∨ (∃ c, i = .ei c) ∨ (∃ d, i = .rebase d) ∨ i = .mreset ∨ i = .loadState
  ds : t.ds = s.ds ∨ (∃ d c, i = .setDs d c) ∨ i = .mreset ∨ i = .loadState
  lyc : t.lyc = s.lyc ∨ (∃ l e c, i = .lycCfg l e c) ∨ i = .mreset ∨ i = .loadState

section
variable {i : Instr} {s t u : State}

theorem ControlWriter.refl (i : Instr) (s : State) : ControlWriter i s s :=
  ⟨.inl (BitVec.le_refl _), .inl rfl, .inl id, .inl rfl, .inl rfl, .inl rfl⟩

theorem ControlWriter.trans (h : ControlWriter i s t) (k : ControlWriter i t u) : ControlWriter i s u where
  cc := h.cc.elim (fun e => k.cc.imp_left (BitVec.le_trans e)) .inr
  ime := h.ime.elim (fun e => k.ime.imp_left (·.trans e)) .inr
  halted := h.halted.elim (fun e => k.halted.imp_left (e ∘ ·)) .inr
  eiCycle := h.eiCycle.elim (fun e => k.eiCycle.imp_left (·.trans e)) .inr
  ds := h.ds.elim (fun e => k.ds.imp_left (·.trans e)) .inr
  lyc := h.lyc.elim (fun e => k.lyc.imp_left (·.trans e)) .inr

theorem Change.controlWriter (h : Change i s t) : ControlWriter i s t := by
  have hrefl := ControlWriter.refl i s
  cases h with
  | tick c hcc => exact { hrefl with cc := .inl hcc }
  | request IF IE =>
    exact { hrefl with
      ime := .inl (wakeIrq_ime _)
      halted := .inl fun h => by
        rw [wakeIrq_halted, Bool.and_eq_true] at h
        exact h.1
      eiCycle := .inl (wakeIrq_eiCycle _) }
  | halt =>
    exact { hrefl with ime := .inl (wakeIrq_ime _), halted := .inr (.inl rfl), eiCycle := .inl (wakeIrq_eiCycle _) }
  | ei c => exact { hrefl with ime := .inr (.inl ⟨c, rfl⟩), eiCycle := .inr (.inl ⟨c, rfl⟩) }
  | di => exact { hrefl with ime := .inr (.inr (.inl rfl)) }
  | speed ds c => exact { hrefl with ds := .inr (.inl ⟨ds, c, rfl⟩) }
  | lineCompare lyc en c => exact { hrefl with lyc := .inr (.inl ⟨lyc, en, c, rfl⟩) }
  | rebase d => exact { hrefl with cc := .inr (.inr (.inl ⟨d, rfl⟩)), eiCycle := .inr (.inr (.inl ⟨d, rfl⟩)) }
  | mreset => constructor <;> simp [State.machineReset, mresetRegisters]
  | loadState => constructor <;> simp
  | _ => exact { hrefl with }

/-- Settles O55, for the writers of each elementary change compose. -/
theorem whoWritesControlState : Obligations.WhoWritesControlState := by
  intro i s t h
  have hw := (exec_changes h).lift (R := ControlWriter i) (ControlWriter.refl i) ControlWriter.trans
    Change.controlWriter
  refine ⟨fun hlt => hw.cc.resolve_left (BitVec.not_le.mpr hlt), hw.ime.resolve_left, fun ht hs => ?_,
    hw.eiCycle.resolve_left, hw.ds.resolve_left, hw.lyc.resolve_left⟩
  exact hw.halted.resolve_left fun hkeeps => absurd (hkeeps ht) (by simp [hs])

theorem BankWriter.refl (i : Instr) (b : Banks) : BankWriter i b b := by
  constructor <;> simp

theorem BankWriter.trans {b b' b'' : Banks} (h : BankWriter i b b') (k : BankWriter i b' b'') : BankWriter i b b'' where
  rombank0 hne := by by_cases e : b'.rombank0 = b.rombank0; exacts [k.rombank0 (e ▸ hne), h.rombank0 e]
  rombank hne := by by_cases e : b'.rombank = b.rombank; exacts [k.rombank (e ▸ hne), h.rombank e]
  ram hne := by
    by_cases e : b'.rambank = b.rambank ∧ b'.ramFlags = b.ramFlags
    · exact k.ram (by rwa [e.1, e.2])
    · exact h.ram (not_and_or.mp e)
  vrambank hne := by by_cases e : b'.vrambank = b.vrambank; exacts [k.vrambank (e ▸ hne), h.vrambank e]
  wrambankSel hne := by by_cases e : b'.wrambankSel = b.wrambankSel; exacts [k.wrambankSel (e ▸ hne), h.wrambankSel e]
  oamDmaSrc hne := by by_cases e : b'.oamDmaSrc = b.oamDmaSrc; exacts [k.oamDmaSrc (e ▸ hne), h.oamDmaSrc e]

/-- What every command but RESET leaves alone, and who writes the banks. -/
structure CartridgeFixed (i : Instr) (s t : State) : Prop where
  geo : t.geo = s.geo
  params : t.params = s.params
  loaded : t.loaded = s.loaded
  table : TableDerived s → TableDerived t
  rom : TableDerived s → ∀ j, t.byteAt .rom j = s.byteAt .rom j
  disr : TableDerived s → ∀ j, t.byteAt .disr j = s.byteAt .disr j
  banks : BankWriter i s.banks t.banks

theorem CartridgeFixed.refl (i : Instr) (s : State) : CartridgeFixed i s s :=
  ⟨rfl, rfl, rfl, id, fun _ _ => rfl, fun _ _ => rfl, .refl i _⟩

theorem CartridgeFixed.trans (h : CartridgeFixed i s t) (k : CartridgeFixed i t u) : CartridgeFixed i s u where
  geo := k.geo.trans h.geo
  params := k.params.trans h.params
  loaded := k.loaded.trans h.loaded
  table := k.table ∘ h.table
  rom hs j := (k.rom (h.table hs) j).trans (h.rom hs j)
  disr hs j := (k.disr (h.table hs) j).trans (h.disr hs j)
  banks := h.banks.trans k.banks

theorem Change.cartridgeFixed (h : Change i s t) (hi : ∀ rom ram wram cgb, i ≠ .reset rom ram wram cgb) :
    CartridgeFixed i s t := by
  have htable := h.tableDerived
  have hrefl := CartridgeFixed.refl i s
  cases h with
  | store r j v _ hr =>
    have hother : ∀ r', r ≠ r' → ∀ n, (s.arena.store r j v).byte r' n = s.arena.byte r' n := fun r' hne n =>
      Arena.byte_store_other _ _ (by simp [hne])
    exact { hrefl with table := htable, rom := fun hs => hother _ (hr hs).1, disr := fun hs => hother _ (hr hs).2 }
  | banks b _ hwriter => exact { hrefl with table := htable, banks := hwriter }
  | mreset => exact { hrefl with table := htable, banks := .of_oamDmaSrc s.banks .off (.inr (.inr (.inl rfl))) }
  | reset rom ram wram cgb => exact absurd rfl (hi rom ram wram cgb)
  | resetFails rom ram wram cgb => exact absurd rfl (hi rom ram wram cgb)
  | loadState => exact { hrefl with table := htable, banks := by constructor <;> simp }
  | _ => exact { hrefl with table := htable }

/-- Settles O56, for what each elementary change leaves alone composes. -/
theorem geometryAndRomFixed : Obligations.GeometryAndRomFixed := by
  intro i s t hs h hi
  have hf := (exec_changes h).lift (R := CartridgeFixed i) (CartridgeFixed.refl i) CartridgeFixed.trans
    fun h => h.cartridgeFixed hi
  exact ⟨hf.geo, hf.params, hf.loaded, hf.rom hs.table, hf.disr hs.table, hf.banks.rombank0, hf.banks.rombank,
    hf.banks.ram, hf.banks.vrambank, hf.banks.wrambankSel, hf.banks.oamDmaSrc⟩

end

end Sys2Proof.Machine
end

section
/-! PROOFS. Saving a state and loading its blob gives the state again (44_save_state.md R287), and who keeps the DMA
position in the range of 10_state.md R36 (log 13). -/

namespace Sys2Proof.Machine

section
variable {i : Instr} {s t u : State}

/-- SAVE_STATE of a ready block fills BUF with its blob (R285). -/
theorem exec_saveState (h : Ready s) :
    exec .saveState s = .next { s with outputs := { rsp := .bit true, buf := some (saveBlob s) } } :=
  exec_ready h rfl

/-- The wake rule finds nothing to do where it has been applied (43_irq_halt.md R267). -/
theorem wakeIrq_of_quiet {q : Irq} (h : q.halted = true → pend q = 0) : wakeIrq q = q := by
  rw [wakeIrq_eq]
  cases hq : q.halted with
  | false => rw [Bool.false_and, ← hq]
  | true => rw [h hq, Bool.true_and, beq_self_eq_true, ← hq]

/-- What LOAD_STATE restores from a state's blob is that state, but for the ports, the commands and the draws. -/
theorem restored_of_saveBlob (hready : Ready s) (hs : Inv s) (hf : u.faulted = none) (hl : u.loaded = true)
    (hparams : u.params = s.params) (hgeo : u.geo = s.geo) (hrom : u.arena.rom = s.arena.rom)
    (hdisr : u.arena.disr = s.arena.disr) (hbuf : u.inputs.buf = saveBlob s) :
    u.restored =
      { s with inputs := u.inputs, outputs := u.outputs, commands := u.commands, draws := u.draws } := by
  obtain ⟨hsf, hsl, hsr⟩ := hready
  have hfields := blobFields_saveBlob hs.memory hparams hgeo hrom hdisr
  rw [State.restored, hbuf, hfields]
  simp only [State.wakeRule, State.derive, wakeIrq_of_quiet hs.halt, ← hs.table hsl, hl, hf, hsf, hsl, hsr]

theorem exec_loadState_of_saveBlob (hready : Ready s) (hs : Inv s) (hd : DmaInRange s) (hf : u.faulted = none)
    (hl : u.loaded = true) (hparams : u.params = s.params) (hgeo : u.geo = s.geo)
    (hrom : u.arena.rom = s.arena.rom) (hdisr : u.arena.disr = s.arena.disr) (hbuf : u.inputs.buf = saveBlob s) :
    exec .loadState u = .next { s with
      inputs := u.inputs, commands := u.commands, draws := u.draws, outputs := { rsp := .bit true } } := by
  have hvalid : BlobValid u.params u.geo u.inputs.buf := by
    rw [hparams, hgeo, hbuf]; exact blobValid_saveBlob hs hready.2.1 hready.2.2 hd
  have hlen : u.inputs.buf.length = stateSize u.geo := by rw [hbuf, hgeo, saveBlob_length]
  refine exec_loaded hf hl (by decide) ((loadBody_of_valid (s := u.clearOutputs) hlen hvalid).trans ?_)
  rw [restored_of_saveBlob (u := u.clearOutputs) hready hs hf hl hparams hgeo hrom hdisr hbuf]
  rfl

/-- Every change but LOAD_STATE's keeps the DMA position in its range. -/
theorem Change.dmaInRange (h : Change i s t) (hi : i ≠ .loadState) (hp : 0 < s.params.dmaBytes)
    (hs : DmaInRange s) : DmaInRange t := by
  cases h with
  | dmaStart v c => exact ⟨hp.le, fun _ => hp⟩
  | dmaStep c harmed =>
    have hlt := hs.2 harmed
    have hnext : (s.dma.dmaPos + 1).toNat ≤ s.dma.dmaPos.toNat + 1 := by bv_omega
    by_cases hend : (s.dma.dmaPos + 1).toNat = s.params.dmaBytes
    · rw [if_pos hend]
      exact ⟨hend.le, fun hne => absurd rfl hne⟩
    · have hmore : (s.dma.dmaPos + 1).toNat < s.params.dmaBytes := by omega
      exact ⟨hmore.le, fun _ => hmore⟩
  | rebase d =>
    exact ⟨hs.1, fun harmed => hs.2 fun hoff => harmed ((congrArg (rebaseTime d) hoff).trans (if_pos rfl))⟩
  | mreset => exact ⟨Nat.zero_le _, fun hne => absurd rfl hne⟩
  | reset => exact ⟨Nat.zero_le _, fun hne => absurd rfl hne⟩
  | loadState => exact absurd rfl hi
  | _ => exact hs

theorem exec_dmaInRange (h : exec i s = .next t) (hi : i ≠ .loadState) (hp : 0 < s.params.dmaBytes)
    (hs : DmaInRange s) : DmaInRange t := by
  have hkeeps := (exec_changes h).lift
    (R := fun s t => 0 < s.params.dmaBytes → DmaInRange s → DmaInRange t ∧ t.params = s.params)
    (fun _ _ hs => ⟨hs, rfl⟩) (fun hst htu hp hs => ?_) (fun h hp hs => ⟨h.dmaInRange hi hp hs, h.params_eq⟩)
  · exact (hkeeps hp hs).1
  · obtain ⟨ht, hpt⟩ := hst hp hs
    obtain ⟨hu, hpu⟩ := htu (by rwa [hpt]) ht
    exact ⟨hu, hpu.trans hpt⟩

/-- A RESET or MRESET that does its work enters the range from any state. -/
theorem dmaInRange_of_reset (h : exec i s = .next t) (hf : t.faulted = none) (hrsp : t.outputs.rsp ≠ .bit false)
    (hi : i = .mreset ∨ ∃ rom ram wram cgb, i = .reset rom ram wram cgb) : DmaInRange t := by
  obtain ⟨hfault, rfl⟩ | ⟨-, id, info, rfl⟩ | ⟨-, -, hb⟩ := exec_next h
  · exact absurd hf hfault
  · exact absurd hf (by simp)
  · obtain rfl | ⟨rom, ram, wram, cgb, rfl⟩ := hi
    · obtain ⟨s1, -, hend⟩ := Except.bind_ok_inv hb
      cases hend
      exact ⟨Nat.zero_le _, fun hne => absurd rfl hne⟩
    · simp only [bodyOf, resetBody] at hb
      split_ifs at hb
      · cases hb; exact absurd rfl hrsp
      · cases hb; exact ⟨Nat.zero_le _, fun hne => absurd rfl hne⟩

/-- Settles O60, by the blob's fields and regions, and by who writes the DMA position. -/
theorem saveLoadRoundTrip : Obligations.SaveLoadRoundTrip := by
  refine ⟨fun s t u b hready hs hd hsave hb hf hl hparams hgeo hrom hdisr hbuf => ?_, fun i s t hp h hi hcase => ?_⟩
  · obtain rfl := Host.Outcome.next.inj ((exec_saveState hready).symm.trans hsave)
    obtain rfl := Option.some.inj hb
    have hload := exec_loadState_of_saveBlob hready hs hd hf hl hparams hgeo hrom hdisr hbuf
    refine ⟨hload, fun v hv => ?_⟩
    obtain rfl := Host.Outcome.next.inj (hload.symm.trans hv)
    exact hd
  · obtain hs | ⟨hf, hrsp, hreset⟩ := hcase
    · exact exec_dmaInRange h hi hp hs
    · exact dmaInRange_of_reset h hf hrsp hreset

end

end Sys2Proof.Machine
end

section
/-! PROOFS. The lifecycle checks (10_state.md R39, 60_exceptions.md R301) and power-on (10_state.md R38). -/

namespace Sys2Proof.Machine

/-- A command whose lifecycle check fails raises F_NO_CART. -/
theorem exec_noCart {i : Instr} {s : State} (hf : s.faulted = none) (hg : (gateOf i).passes s = false) :
    exec i s = .next (s.raise (encode i) .noCart .none) := by
  rw [exec_eq]; exact runCommand_noCart hf hg

/-- Of the well-formed commands RESET alone has no lifecycle check. -/
theorem gateOf_ne_none {i : Instr} (hw : i.wellFormed = true) (hi : ∀ rom ram wram cgb, i ≠ .reset rom ram wram cgb) :
    gateOf i ≠ .none := by
  rw [gateOf, if_pos hw]
  cases i with
  | reset rom ram wram cgb => exact absurd rfl (hi rom ram wram cgb)
  | _ => exact Gate.noConfusion

theorem passes_eq_false_of_not_loaded {g : Gate} {s : State} (hg : g ≠ .none) (hl : s.loaded = false) :
    g.passes s = false := by
  cases g with
  | none => exact absurd rfl hg
  | loaded => exact hl
  | running => exact (congrArg (· && s.running) hl).trans (Bool.false_and _)

theorem passes_running_eq_false {s : State} (hr : s.running = false) : Gate.running.passes s = false :=
  (congrArg (s.loaded && ·) hr).trans (Bool.and_false _)

/-- Settles O7, by the lifecycle check of each command. -/
theorem lifecycleChecks : Obligations.LifecycleChecks := by
  refine ⟨fun i s hw hf hl hi => ?_, fun s a v p c b m i hf _ hr hi => ?_⟩
  · exact ⟨_, exec_noCart hf (passes_eq_false_of_not_loaded (gateOf_ne_none hw hi) hl), rfl⟩
  · have hg : gateOf i = .running := by
      revert i
      simp [gateOf, Instr.wellFormed, Gate.ofInstr]
    exact ⟨_, exec_noCart hf (by rw [hg]; exact passes_running_eq_false hr), rfl⟩

/-- Settles O9: with no cartridge loaded the invariants ask little, and the model's power-on values meet the rest. -/
theorem powerOnState : Obligations.PowerOnState := by
  refine ⟨rfl, rfl, rfl, rfl, ?_⟩
  exact {
    table := fun h => absurd h Bool.false_ne_true
    memory := fun r => by cases r <;> rfl
    banks := fun h => absurd h Bool.false_ne_true
    running := fun h => absurd h Bool.false_ne_true
    halt := fun h => absurd h Bool.false_ne_true
    blit := fun h => absurd h Bool.false_ne_true
    counter := fun h => absurd h Bool.false_ne_true
    serial := Nat.zero_le _
    sentinel := fun _ => rfl }

end Sys2Proof.Machine
end

section
/-! PROOFS. The bank commands (40_bank_window_ops.md R134 to R143) on a block with a cartridge. -/

namespace Sys2Proof.Machine

theorem loaded_ne_running : Gate.loaded ≠ Gate.running := by decide

/-- SET_WRAMBANK looks at the three low bits of its operand (R141). -/
theorem wramBankOf_low (bank : BitVec 16) : wramBankOf (bank.extractLsb' 0 3) = max (bank.toNat % 8) 1 := by
  simp [wramBankOf, BitVec.extractLsb'_toNat]

/-- Settles O42, by the range check of each of the five commands. -/
theorem setBanks : Obligations.SetBanks := by
  intro s bank ram flags hf hl becomes raises
  refine ⟨fun h => ⟨?rombank0, ?rombank⟩, fun h => ⟨⟨_, ?noRombank0, rfl⟩, ⟨_, ?noRombank, rfl⟩⟩, fun h => ?rambank,
    fun h0 h => ⟨_, ?noRambank, rfl⟩, fun h => ?wrambank, fun h => ⟨_, ?noWrambank, rfl⟩, fun h => ?vrambank,
    fun h => ⟨_, ?noVrambank, rfl⟩⟩
  case rombank0 | rombank => exact exec_loaded hf hl loaded_ne_running (if_neg (BitVec.not_le.mpr h))
  case noRombank0 | noRombank => exact exec_loaded_raise hf hl loaded_ne_running (if_pos h)
  case rambank =>
    have hexists : ¬(s.geo.ramBanks ≠ 0 ∧ s.geo.ramBanks ≤ ram) := fun ⟨hne, hle⟩ => h.elim hne (Nat.not_lt.mpr hle)
    exact exec_loaded hf hl loaded_ne_running (if_neg hexists)
  case noRambank => exact exec_loaded_raise hf hl loaded_ne_running (if_pos ⟨h0, h⟩)
  case wrambank =>
    exact exec_loaded hf hl loaded_ne_running (if_neg (by rw [wramBankOf_low]; exact Nat.not_le.mpr h))
  case noWrambank => exact exec_loaded_raise hf hl loaded_ne_running (if_pos (by rw [wramBankOf_low]; exact h))
  case vrambank => exact exec_loaded hf hl loaded_ne_running (if_neg (Nat.not_lt.mpr h))
  case noVrambank => exact exec_loaded_raise hf hl loaded_ne_running (if_pos h)

end Sys2Proof.Machine
end

section
/-! PROOFS. The scheduler's commands (42_scheduler.md R212 to R222): MRESET, SET_DS, LYC_CFG and REBASE, each with its
refusal. -/

namespace Sys2Proof.Machine

section
variable {s : State} {c : Cycle}

/-- The legal LY view of 42_scheduler.md R210, in numbers. -/
theorem lyViewOk_iff : lyViewOk s c = true ↔ s.inputs.ly.toNat ≤ s.params.lastLine ∧
    0 < (s.inputs.lyTime - c).toNat ∧ (s.inputs.lyTime - c).toNat ≤ dsShift s.ds s.params.lineCycles := by
  simp only [lyViewOk, Bool.and_eq_true, decide_eq_true_eq, and_assoc]

theorem checkLyView_bad (h : lyViewOk s c ≠ true) :
    s.checkLyView c = .error (.raise .contract (.lyView s.inputs.ly s.inputs.lyTime)) := if_neg h

/-- MRESET on a legal LY view. -/
theorem exec_mreset (hf : s.faulted = none) (hl : s.loaded = true)
    (hview : lyViewOk { s with cc := 0, ds := false } 0 = true) :
    exec .mreset s = .next s.clearOutputs.machineReset := by
  refine exec_loaded hf hl loaded_ne_running ?_
  have hcheck : State.checkLyView 0 { s.clearOutputs with cc := 0, ds := false } = .ok _ := State.checkLyView_ok hview
  simp only [bodyOf, mresetBody, hcheck, Except.bind_ok]
  rfl

/-- MRESET on an illegal LY view. -/
theorem exec_mreset_bad (hf : s.faulted = none) (hl : s.loaded = true)
    (hview : lyViewOk { s with cc := 0, ds := false } 0 ≠ true) :
    exec .mreset s = .next (s.raise (encode .mreset) .contract (.lyView s.inputs.ly s.inputs.lyTime)) := by
  refine exec_loaded_raise hf hl loaded_ne_running ?_
  have hcheck := checkLyView_bad (s := { s.clearOutputs with cc := 0, ds := false }) hview
  simp only [bodyOf, mresetBody, hcheck, Except.bind_error]
  rfl

/-- SET_DS on a legal LY view. -/
theorem exec_setDs {ds : Bool} (h : Ready s) (hc : CycleOk c s) (hview : lyViewOk { s with ds := ds } c = true) :
    let t := { s with cc := c, ds := ds, outputs := {} }
    exec (.setDs ds c) s =
      .next { t with time := { s.time with lyc := lycSchedule t c, blit := blitSchedule t c } } := by
  refine exec_ready h ?_
  have hcheck : State.checkLyView c { s.begun c with ds := ds } = .ok _ := State.checkLyView_ok hview
  simp only [bodyOf, setDsBody, tick_begun hc, Except.bind_ok, hcheck]
  rfl

/-- SET_DS on an illegal LY view. -/
theorem exec_setDs_bad {ds : Bool} (h : Ready s) (hc : CycleOk c s) (hview : lyViewOk { s with ds := ds } c ≠ true) :
    exec (.setDs ds c) s =
      .next (s.raise (encode (.setDs ds c)) .contract (.lyView s.inputs.ly s.inputs.lyTime)) := by
  refine exec_ready_raise h ?_
  have hcheck := checkLyView_bad (s := { s.begun c with ds := ds }) hview
  simp only [bodyOf, setDsBody, tick_begun hc, Except.bind_ok, hcheck, Except.bind_error]
  rfl

/-- LYC_CFG on a legal LY view. -/
theorem exec_lycCfg {lyc : Byte} {en : Bool} (h : Ready s) (hc : CycleOk c s) (hview : lyViewOk s c = true) :
    let t := { s with cc := c, lyc := { lycReg := lyc, lycEnable := en }, outputs := {} }
    exec (.lycCfg lyc en c) s = .next { t with time := { s.time with lyc := lycSchedule t c } } := by
  refine exec_ready h ?_
  have hcheck : (s.begun c).checkLyView c = .ok _ := State.checkLyView_ok hview
  simp only [bodyOf, lycCfgBody, tick_begun hc, Except.bind_ok, hcheck]
  rfl

/-- LYC_CFG on an illegal LY view. -/
theorem exec_lycCfg_bad {lyc : Byte} {en : Bool} (h : Ready s) (hc : CycleOk c s) (hview : lyViewOk s c ≠ true) :
    exec (.lycCfg lyc en c) s =
      .next (s.raise (encode (.lycCfg lyc en c)) .contract (.lyView s.inputs.ly s.inputs.lyTime)) := by
  refine exec_ready_raise h ?_
  have hcheck := checkLyView_bad (s := s.begun c) hview
  simp only [bodyOf, lycCfgBody, tick_begun hc, Except.bind_ok, hcheck, Except.bind_error]
  rfl

/-- The example of 42_scheduler.md R212: the default parameters and the view (0, 456). -/
theorem mresetTimes_default (hp : s.params = {}) (hly : s.inputs.ly = 0) (htime : s.inputs.lyTime = 456) :
    s.machineReset.time.lyc = 69775 ∧ s.machineReset.time.blit = 65664 ∧
      s.machineReset.time.tima = 0xFFFFFFFF := by
  simp [State.machineReset, mresetTimes, mresetRegisters, lycSchedule, blitSchedule, timaSchedule, timaRuns, hp, hly,
    htime]

/-- Settles O47, by the two outcomes of MRESET and its schedules at the example's values. -/
theorem machineReset : Obligations.MachineReset := by
  constructor
  · intro s hf hl legal banks
    have hlegal : lyViewOk { s with cc := 0, ds := false } 0 = true ↔ legal := by
      rw [lyViewOk_iff]; simp [legal]
    exact ⟨fun h => ⟨_, exec_mreset hf hl (hlegal.mpr h), rfl, rfl, rfl, rfl, rfl, rfl⟩,
      fun h => ⟨_, exec_mreset_bad hf hl (mt hlegal.mp h), rfl⟩⟩
  · intro s hf hl hp hly htime
    have hview : lyViewOk { s with cc := 0, ds := false } 0 = true := by
      rw [lyViewOk_iff]; simp [hp, hly, htime]
    exact ⟨_, exec_mreset hf hl hview, mresetTimes_default (s := s.clearOutputs) hp hly htime⟩

/-- Settles O48, by the two outcomes of SET_DS and of LYC_CFG. -/
theorem speedAndLineCompare : Obligations.SpeedAndLineCompare := by
  intro s ds en lyc c h hc legal s1 s2
  have hlegal : ∀ ds, lyViewOk { s with ds := ds } c = true ↔ legal ds := fun ds => by
    rw [lyViewOk_iff]; cases ds <;> simp [legal]
  exact ⟨fun hv => exec_setDs h hc ((hlegal ds).mpr hv),
    fun hv => ⟨_, exec_setDs_bad h hc (mt (hlegal ds).mp hv), rfl⟩,
    fun hv => exec_lycCfg h hc ((hlegal s.ds).mpr hv),
    fun hv => ⟨_, exec_lycCfg_bad h hc (mt (hlegal s.ds).mp hv), rfl⟩⟩

/-- A bound of every trigger time is one of the least. -/
theorem le_minTime_iff {d : Cycle} {x : Times} : d ≤ minTime x ↔ ∀ u : SchedUnit, d ≤ x.get u := by
  refine ⟨fun h u => BitVec.le_trans h (minTime_le x u), fun h => ?_⟩
  rw [← get_nextUnit]
  exact h _

/-- Settles O50, by the check of REBASE. -/
theorem rebaseMovesCycles : Obligations.RebaseMovesCycles := by
  intro s d h back ok
  have hok : ¬(s.cc < d ∨ minTime s.time < d) ↔ ok := by
    rw [not_or, BitVec.not_lt, BitVec.not_lt, le_minTime_iff]
  exact ⟨fun hle => exec_ready h (if_neg (hok.mpr hle)),
    fun hbad => ⟨_, exec_ready_raise h (if_pos (not_not.mp (mt hok.mp hbad))), rfl⟩⟩

end

end Sys2Proof.Machine
end

section
/-! PROOFS. READ through an uncontended window (41_bus_access.md R160, 20_memory.md R64 to R76). -/

namespace Sys2Proof.Machine

section
variable {s : State} {a : Addr} {c : Cycle}

/-- READ through a window answers the byte the window maps. -/
theorem exec_read_of_window (h : Ready s) (hc : CycleOk c s) (htable : s.table = deriveTable s.params s.geo s.banks)
    {r : Region} {bias : Int} (hentry : deriveRAt s.params s.geo s.banks (nibble a) = .win r bias) {j : Nat}
    (hj : bias + a.toNat = j) (hbound : j < r.length s.geo) :
    exec (.read a c) s = .next { s with cc := c, outputs := { rsp := .byte (s.byteAt r j) } } := by
  have hwindow : (s.begun c).readEntry a = .win r bias := (State.readEntry_of_derived htable a).trans hentry
  have hbyte : (s.begun c).readArena r (bias + a.toNat) = .ok (s.byteAt r j) := by
    rw [hj]; exact State.readArena_ok (Int.natCast_nonneg j) (Int.ofNat_lt.mpr hbound)
  refine exec_read h hc (t := s.begun c) ?_
  simp only [busRead, hwindow, hbyte, Except.bind_ok]
  rfl

/-- READ of cartridge RAM on the slow path, uncontended, answers the port's byte (R163). -/
theorem exec_read_cartRd (h : Ready s) (hc : CycleOk c s) (htable : s.table = deriveTable s.params s.geo s.banks)
    (hentry : deriveRAt s.params s.geo s.banks (nibble a) = .slow) (hlo : 0xA000 ≤ a.toNat) (hhi : a.toNat < 0xC000)
    (hopen : s.sramBlocked = false) :
    exec (.read a c) s = .next { s with cc := c, outputs := { rsp := .byte s.inputs.cartRd } } := by
  have hslow : (s.begun c).readEntry a = .slow := (State.readEntry_of_derived htable a).trans hentry
  have hopen' : (s.begun c).sramBlocked = false := hopen
  refine exec_read h hc (t := s.begun c) ?_
  simp only [busRead, hslow, slowRead]
  rw [if_neg (by omega), if_neg (by omega), if_pos hhi, hopen']
  rfl

/-! ## The entry of each window, where its bus is not blocked -/

theorem deriveRAt_rom0 (ha : a.toNat < 0x4000) (hopen : s.romBlocked = false) :
    deriveRAt s.params s.geo s.banks (nibble a) = .win .rom (s.banks.rombank0.toNat * 0x4000) := by
  have hn := nibble_eq a
  rw [deriveRAt, if_pos (by omega), if_neg (by rw [← State.romBlocked, hopen]; decide), baseR, if_pos (by omega)]

theorem deriveRAt_rom (hlo : 0x4000 ≤ a.toNat) (hhi : a.toNat < 0x8000) (hopen : s.romBlocked = false) :
    deriveRAt s.params s.geo s.banks (nibble a) = .win .rom (s.banks.rombank.toNat * 0x4000 - 0x4000) := by
  have hn := nibble_eq a
  rw [deriveRAt, if_pos (by omega), if_neg (by rw [← State.romBlocked, hopen]; decide), baseR, if_neg (by omega),
    if_pos (by omega)]

theorem deriveRAt_sram (hlo : 0xA000 ≤ a.toNat) (hhi : a.toNat < 0xC000) (hopen : s.sramBlocked = false) :
    deriveRAt s.params s.geo s.banks (nibble a) = ramR s.geo s.banks := by
  have hn := nibble_eq a
  rw [deriveRAt, if_neg (by omega), if_pos (by omega), if_neg (by rw [← State.sramBlocked, hopen]; decide), baseR,
    if_neg (by omega), if_neg (by omega), if_neg (by omega), if_pos (by omega)]

/-- The three working-RAM windows: bank 0, the switchable bank, the echo of bank 0. -/
theorem deriveRAt_wram (hlo : 0xC000 ≤ a.toNat) (hhi : a.toNat < 0xF000) (hopen : s.wramBlocked = false) :
    deriveRAt s.params s.geo s.banks (nibble a) = .win .wram
      (if a.toNat < 0xD000 then -0xC000 else if a.toNat < 0xE000 then s.banks.wramEff * 0x1000 - 0xD000
       else -0xE000) := by
  have hn := nibble_eq a
  rw [deriveRAt, if_neg (by omega), if_neg (by omega), if_pos (by omega),
    if_neg (by rw [← State.wramBlocked, hopen]; decide), baseR, if_neg (by omega), if_neg (by omega),
    if_neg (by omega), if_neg (by omega)]
  by_cases h0 : a.toNat < 0xD000
  · rw [if_pos h0, if_pos (by omega)]
  · rw [if_neg h0, if_neg (by omega)]
    by_cases hsel : a.toNat < 0xE000
    · rw [if_pos hsel, if_pos (by omega)]
    · rw [if_neg hsel, if_neg (by omega), if_pos (by omega)]

/-- The read window of cartridge RAM: the sentinel while it is disabled or absent, the port while the clock is selected
(20_memory.md R68). -/
theorem ramR_eq (g : Geometry) (b : Banks) : ramR g b =
    if readEn b.ramFlags = false then .win .disr (-0xA000)
    else if rtcEn b.ramFlags then .slow
    else if g.ramBanks = 0 then .win .disr (-0xA000)
    else .win .sram (b.rambank.toNat * 0x2000 - 0xA000) := by
  cases hread : readEn b.ramFlags <;> cases hclock : rtcEn b.ramFlags <;> simp [ramR, hread, hclock]

/-- Settles O18, by the entry of each window and the byte it maps. -/
theorem readThroughWindow : Obligations.ReadThroughWindow := by
  intro s a c h hc hs answers
  have htable := hs.table h.2.1
  obtain ⟨-, hwram2, -, hrom0, hrom, hram, hwram⟩ := hs.banks h.2.1
  have hsel : s.banks.wramEff = max s.banks.wrambankSel.toNat 1 := rfl
  rw [hsel] at hwram
  refine ⟨fun ha hopen => ?rom0, fun hlo hhi hopen => ?rom, fun hlo hhi hopen => ?wram0, fun hlo hhi hopen => ?wram,
    fun hlo hhi hopen => ?echo, fun hlo hhi hopen => ?sram⟩
  case rom0 =>
    exact exec_read_of_window h hc htable (deriveRAt_rom0 ha hopen) (by omega) (by rw [Region.length]; omega)
  case rom =>
    exact exec_read_of_window h hc htable (deriveRAt_rom hlo hhi hopen) (by omega) (by rw [Region.length]; omega)
  case wram0 =>
    have hentry := deriveRAt_wram (a := a) (by omega) (by omega) hopen
    rw [if_pos hhi] at hentry
    exact exec_read_of_window h hc htable hentry (by omega) (by rw [Region.length]; omega)
  case wram =>
    have hentry := deriveRAt_wram (a := a) (by omega) (by omega) hopen
    rw [if_neg (by omega), if_pos hhi, hsel] at hentry
    exact exec_read_of_window h hc htable hentry (by omega) (by rw [Region.length]; omega)
  case echo =>
    have hentry := deriveRAt_wram (a := a) (by omega) hhi hopen
    rw [if_neg (by omega), if_neg (by omega)] at hentry
    exact exec_read_of_window h hc htable hentry (by omega) (by rw [Region.length]; omega)
  case sram =>
    have hentry := (deriveRAt_sram hlo hhi hopen).trans (ramR_eq ..)
    have hdisr : deriveRAt s.params s.geo s.banks (nibble a) = .win .disr (-0xA000) → answers 0xFF := fun hdisr => by
      have hread := exec_read_of_window h hc htable hdisr (j := a.toNat - 0xA000) (by omega)
        (by rw [Region.length]; omega)
      rwa [State.byteAt, hs.sentinel] at hread
    by_cases hoff : s.banks.ramFlags.getLsbD 0 = false
    · rw [if_pos hoff]
      exact hdisr (hentry.trans (if_pos hoff))
    · rw [if_neg hoff]
      replace hentry := hentry.trans (if_neg hoff)
      by_cases hclock : s.banks.ramFlags.getLsbD 2 = true
      · rw [if_pos hclock]
        exact exec_read_cartRd h hc htable (hentry.trans (if_pos hclock)) hlo hhi hopen
      · rw [if_neg hclock]
        replace hentry := hentry.trans (if_neg hclock)
        by_cases habsent : s.geo.ramBanks = 0
        · rw [if_pos habsent]
          exact hdisr (hentry.trans (if_pos habsent))
        · have hbank : s.banks.rambank.toNat < s.geo.ramBanks.toNat :=
            hram.resolve_left fun h0 => habsent (BitVec.eq_of_toNat_eq h0)
          rw [if_neg habsent]
          exact exec_read_of_window h hc htable (hentry.trans (if_neg habsent)) (by omega)
            (by rw [Region.length]; omega)

end

end Sys2Proof.Machine
end

section
/-! PROOFS. One OAM DMA step (42_scheduler.md R235, R236), dispatched by EVENT. -/

namespace Sys2Proof.Machine

section
variable {s : State} {a : Nat}

/-- The DMA's own read answers for every source address (42_scheduler.md R237). -/
theorem dmaSourceByte_total (hl : s.loaded = true) (hb : BanksLegal s) (ha : a < 0x10000) :
    ∃ v u, dmaSourceByte a s = .ok (v, u) := by
  obtain ⟨-, hwram2, -, hrom0, hrom, hram, hwram⟩ := hb hl
  have hvram := s.banks.vrambank.isLt
  have hread : ∀ (r : Region) (j : Int), 0 ≤ j → j < r.length s.geo →
      ∃ v u, (do return (← s.readArena r j, s) : Except Abort (Byte × State)) = .ok (v, u) := fun r j h0 h1 =>
    ⟨_, _, by rw [State.readArena_ok h0 h1]; rfl⟩
  unfold dmaSourceByte
  split_ifs with h1 h2 h3 hok h4 h5 h6
  · exact hread .rom _ (by omega) (by rw [Region.length]; omega)
  · exact hread .rom _ (by omega) (by rw [Region.length]; omega)
  · exact hread .vram _ (by omega) (by rw [Region.length]; omega)
  · exact ⟨_, _, rfl⟩
  · rw [ramR_eq]
    split_ifs with hoff hclock habsent
    · exact hread .disr _ (by omega) (by rw [Region.length]; omega)
    · exact ⟨_, _, rfl⟩
    · exact hread .disr _ (by omega) (by rw [Region.length]; omega)
    · have hbank : s.banks.rambank.toNat < s.geo.ramBanks.toNat :=
        hram.resolve_left fun h0 => habsent (BitVec.eq_of_toNat_eq h0)
      exact hread .sram _ (by omega) (by rw [Region.length]; omega)
  · exact hread .wram _ (by omega) (by rw [Region.length]; omega)
  · exact hread .wram _ (by omega) (by rw [Region.length]; omega)
  · exact ⟨_, _, rfl⟩

/-- The DMA's own read looks neither at the counter nor at the source it records. -/
theorem dmaSourceByte_begun {v : Byte} {u : State} (c : Cycle) (d : DmaSrc) (h : dmaSourceByte a s = .ok (v, u)) :
    dmaSourceByte a ((s.begun c).setDmaSrc d) = .ok (v, { (s.begun c).setDmaSrc d with draws := u.draws }) := by
  have hread : ∀ {r : Region} {j : Int},
      (do return (← s.readArena r j, s) : Except Abort (Byte × State)) = .ok (v, u) →
      (do return (← ((s.begun c).setDmaSrc d).readArena r j, (s.begun c).setDmaSrc d) : Except Abort (Byte × State)) =
        .ok (v, { (s.begun c).setDmaSrc d with draws := u.draws }) := fun {r j} h => by
    obtain ⟨w, hw, h⟩ := Except.bind_ok_inv h
    cases h
    rw [show ((s.begun c).setDmaSrc d).readArena r j = .ok v from hw]
    rfl
  have hinputs : ((s.begun c).setDmaSrc d).inputs = s.inputs := rfl
  have hramR : ramR ((s.begun c).setDmaSrc d).geo ((s.begun c).setDmaSrc d).banks = ramR s.geo s.banks := rfl
  unfold dmaSourceByte at h ⊢
  rw [hinputs, hramR]
  split_ifs at h ⊢ with h1 h2 h3 hok h4 h5 h6
  · exact hread h
  · exact hread h
  · exact hread h
  · cases h; rfl
  · split at h
    · exact hread h
    · cases h; rfl
  · exact hread h
  · exact hread h
  · cases h; rfl

/-- The state one DMA step at trigger time `c` leaves, with the byte `v` it copied (42_scheduler.md R236). -/
def State.afterDmaStep (c : Cycle) (v : Byte) (draws : Nat) (s : State) : State :=
  let pos := s.dma.dmaPos + 1
  let ends := pos.toNat = s.params.dmaBytes
  let banks := { s.banks with oamDmaSrc := if ends then .off else dmaClass s.dma.dmaReg }
  { s with
    arena := s.arena.store .hi s.dma.dmaPos.toNat v
    dma := { s.dma with dmaPos := pos }
    banks := banks
    table := deriveTable s.params s.geo banks
    time := { s.time with oamDma := if ends then disabled else c + BitVec.ofNat 32 s.params.dmaByteCycles }
    draws := draws }

/-- Recording the source that stands changes nothing where the table is the derived one. -/
theorem setDmaSrc_self {d : DmaSrc} (ht : s.table = deriveTable s.params s.geo s.banks) (hd : s.banks.oamDmaSrc = d) :
    s.setDmaSrc d = s := by
  subst hd
  have hderive : s.derive = s := by rw [State.derive, ← ht]
  exact hderive

/-- A DMA step from its three parts: the source recorded, the byte read, the byte stored. -/
theorem dmaDispatch_of_parts {c : Cycle} {v : Byte} {x w u : State}
    (hx : (if s.banks.oamDmaSrc = dmaClass s.dma.dmaReg then s else s.setDmaSrc (dmaClass s.dma.dmaReg)) = x)
    (hread : dmaSourceByte (dmaSourceAddr x.dma) x = .ok (v, w))
    (hstore : w.writeArena .hi w.dma.dmaPos.toNat v = .ok u) :
    dmaDispatch c s =
      let t := { u with dma := { u.dma with dmaPos := u.dma.dmaPos + 1 } }
      if t.dma.dmaPos.toNat = t.params.dmaBytes then .ok ((t.setDmaSrc .off).setTime .oamDma disabled)
      else .ok (t.setTime .oamDma (c + BitVec.ofNat 32 t.params.dmaByteCycles)) := by
  unfold dmaDispatch
  dsimp only
  rw [hx, hread]
  dsimp only [Except.bind_ok]
  rw [hstore]
  rfl

/-- A DMA step where the table is the derived one and the source byte is `v`. -/
theorem dmaDispatch_eq (ht : s.table = deriveTable s.params s.geo s.banks) {c : Cycle} {v : Byte} {n : Nat}
    (hread : dmaSourceByte (dmaSourceAddr s.dma) (s.setDmaSrc (dmaClass s.dma.dmaReg)) =
      .ok (v, { s.setDmaSrc (dmaClass s.dma.dmaReg) with draws := n })) :
    dmaDispatch c s = .ok (s.afterDmaStep c v n) := by
  have hsource : (if s.banks.oamDmaSrc = dmaClass s.dma.dmaReg then s else s.setDmaSrc (dmaClass s.dma.dmaReg)) =
      s.setDmaSrc (dmaClass s.dma.dmaReg) := by
    split
    · next hd => exact (setDmaSrc_self ht hd).symm
    · rfl
  have hpos : (s.dma.dmaPos.toNat : Int) < (Region.hi.length s.geo : Int) := by
    have := s.dma.dmaPos.isLt
    rw [Region.length]; omega
  have hstore := State.writeArena_ok (r := .hi) (s := { s.setDmaSrc (dmaClass s.dma.dmaReg) with draws := n }) v
    (Int.natCast_nonneg s.dma.dmaPos.toNat) hpos
  rw [dmaDispatch_of_parts hsource hread hstore, State.afterDmaStep]
  by_cases hend : (s.dma.dmaPos + 1).toNat = s.params.dmaBytes
  · simp only [hend, if_true]
    exact if_pos hend
  · simp only [hend, if_false]
    exact if_neg hend

/-- OAMDMA is dispatched where it is due before BLIT and SERIAL and no later than TIMA and LYC (R202). -/
theorem nextUnit_oamDma {x : Times} (hblit : x.oamDma < x.blit) (hserial : x.oamDma < x.serial)
    (htima : x.oamDma ≤ x.tima) (hlyc : x.oamDma ≤ x.lyc) : minTime x = x.oamDma ∧ nextUnit x = .oamDma := by
  have hmin : minTime x = x.oamDma := by
    apply BitVec.eq_of_toNat_eq
    rw [minTime_toNat]
    rw [BitVec.lt_def] at hblit hserial
    rw [BitVec.le_def] at htima hlyc
    omega
  refine ⟨hmin, ?_⟩
  rw [nextUnit, hmin, if_neg (BitVec.ne_of_lt hblit).symm, if_neg (BitVec.ne_of_lt hserial).symm, if_pos rfl]

/-- Settles O37, by one DMA step from the state EVENT begins with. -/
theorem eventOamDma : Obligations.EventOamDma := by
  intro s c h hc hs hdue hblit hserial htima hlyc i ends src banks time
  obtain ⟨hmin, hnext⟩ := nextUnit_oamDma hblit hserial htima hlyc
  have haddr : dmaSourceAddr s.dma < 0x10000 := by
    have := s.dma.dmaReg.isLt
    have := s.dma.dmaPos.isLt
    rw [dmaSourceAddr]; omega
  obtain ⟨v, u, hread⟩ := dmaSourceByte_total h.2.1 hs.banks haddr
  have hstep : dispatch (nextUnit s.time) (minTime s.time) (s.begun c) =
      .ok ((s.begun c).afterDmaStep s.time.oamDma v u.draws) := by
    rw [hnext, hmin]
    exact dmaDispatch_eq (s := s.begun c) (hs.table h.2.1) (dmaSourceByte_begun c _ hread)
  refine ⟨_, u, v, hread, exec_event_due h hc (by rw [hmin]; exact hdue) hstep, rfl, ?_, fun r j hne => ?_⟩
  · exact Arena.byte_store_same _ _ _ _
  · exact Arena.byte_store_other _ _ (Ne.symm hne)

end

end Sys2Proof.Machine
end

section
/-! PROOFS. The window table entry by entry (20_memory.md R64 to R77): what each address range consults in the derived
table, blocked or not, and that every window stays inside its region. -/

namespace Sys2Proof.Machine

/-! ## The derived table by bus group (R72, R75) -/

section
variable {p : Params} {g : Geometry} {b : Banks} {a : Addr}

theorem deriveRAt_romBus (ha : a.toNat < 0x8000) :
    deriveRAt p g b (nibble a) = if blockedRom p g b.oamDmaSrc then .slow else baseR g b (nibble a) := by
  have hn := nibble_eq a
  rw [deriveRAt, if_pos (by omega)]

theorem deriveRAt_vramBus (hlo : 0x8000 ≤ a.toNat) (hhi : a.toNat < 0xA000) :
    deriveRAt p g b (nibble a) = baseR g b (nibble a) := by
  have hn := nibble_eq a
  rw [deriveRAt, if_neg (by omega), if_neg (by omega), if_neg (by omega)]

theorem deriveRAt_sramBus (hlo : 0xA000 ≤ a.toNat) (hhi : a.toNat < 0xC000) :
    deriveRAt p g b (nibble a) = if blockedSram p g b.oamDmaSrc then .slow else baseR g b (nibble a) := by
  have hn := nibble_eq a
  rw [deriveRAt, if_neg (by omega), if_pos (by omega)]

theorem deriveRAt_wramBus (hlo : 0xC000 ≤ a.toNat) (hhi : a.toNat < 0xF000) :
    deriveRAt p g b (nibble a) = if blockedWram p g b.oamDmaSrc then .slow else baseR g b (nibble a) := by
  have hn := nibble_eq a
  rw [deriveRAt, if_neg (by omega), if_neg (by omega), if_pos (by omega)]

theorem deriveRAt_high (hlo : 0xF000 ≤ a.toNat) : deriveRAt p g b (nibble a) = baseR g b (nibble a) := by
  have hn := nibble_eq a
  rw [deriveRAt, if_neg (by omega), if_neg (by omega), if_neg (by omega)]

theorem deriveWAt_low (ha : a.toNat < 0xA000) : deriveWAt p g b (nibble a) = baseW g b (nibble a) := by
  have hn := nibble_eq a
  rw [deriveWAt, if_neg (by omega), if_neg (by omega)]

theorem deriveWAt_sramBus (hlo : 0xA000 ≤ a.toNat) (hhi : a.toNat < 0xC000) :
    deriveWAt p g b (nibble a) = if blockedSram p g b.oamDmaSrc then .slow else baseW g b (nibble a) := by
  have hn := nibble_eq a
  rw [deriveWAt, if_pos (by omega)]

theorem deriveWAt_wramBus (hlo : 0xC000 ≤ a.toNat) (hhi : a.toNat < 0xF000) :
    deriveWAt p g b (nibble a) = if blockedWram p g b.oamDmaSrc then .slow else baseW g b (nibble a) := by
  have hn := nibble_eq a
  rw [deriveWAt, if_neg (by omega), if_pos (by omega)]

theorem deriveWAt_high (hlo : 0xF000 ≤ a.toNat) : deriveWAt p g b (nibble a) = baseW g b (nibble a) := by
  have hn := nibble_eq a
  rw [deriveWAt, if_neg (by omega), if_neg (by omega)]

/-! ## The base entries that are the same for every bank -/

theorem baseR_vram (hlo : 0x8000 ≤ a.toNat) (hhi : a.toNat < 0xA000) : baseR g b (nibble a) = .slow := by
  have hn := nibble_eq a
  rw [baseR, if_neg (by omega), if_neg (by omega), if_pos (by omega)]

theorem baseR_high (hlo : 0xF000 ≤ a.toNat) : baseR g b (nibble a) = .slow := by
  have hn := nibble_eq a
  rw [baseR, if_neg (by omega), if_neg (by omega), if_neg (by omega), if_neg (by omega), if_neg (by omega),
    if_neg (by omega), if_neg (by omega)]

theorem baseW_low (ha : a.toNat < 0xA000) : baseW g b (nibble a) = .slow := by
  have hn := nibble_eq a
  rw [baseW, if_pos (by omega)]

theorem baseW_sram (hlo : 0xA000 ≤ a.toNat) (hhi : a.toNat < 0xC000) : baseW g b (nibble a) = ramW g b := by
  have hn := nibble_eq a
  rw [baseW, if_neg (by omega), if_pos (by omega)]

/-- The three working-RAM windows: bank 0, the switchable bank, the echo of bank 0. -/
theorem baseW_wram (hlo : 0xC000 ≤ a.toNat) (hhi : a.toNat < 0xF000) : baseW g b (nibble a) = .win .wram
    (if a.toNat < 0xD000 then -0xC000 else if a.toNat < 0xE000 then b.wramEff * 0x1000 - 0xD000 else -0xE000) := by
  have hn := nibble_eq a
  rw [baseW, if_neg (by omega), if_neg (by omega)]
  by_cases h0 : a.toNat < 0xD000
  · rw [if_pos h0, if_pos (by omega)]
  · rw [if_neg h0, if_neg (by omega)]
    by_cases hsel : a.toNat < 0xE000
    · rw [if_pos hsel, if_pos (by omega)]
    · rw [if_neg hsel, if_neg (by omega), if_pos (by omega)]

theorem baseW_high (hlo : 0xF000 ≤ a.toNat) : baseW g b (nibble a) = .slow := by
  have hn := nibble_eq a
  rw [baseW, if_neg (by omega), if_neg (by omega), if_neg (by omega), if_neg (by omega), if_neg (by omega)]

end

section
variable {s : State} {a : Addr}

theorem deriveWAt_sram (hlo : 0xA000 ≤ a.toNat) (hhi : a.toNat < 0xC000) (hopen : s.sramBlocked = false) :
    deriveWAt s.params s.geo s.banks (nibble a) = ramW s.geo s.banks := by
  rw [deriveWAt_sramBus hlo hhi, ← State.sramBlocked, hopen, if_neg (by decide), baseW_sram hlo hhi]

theorem deriveWAt_wram (hlo : 0xC000 ≤ a.toNat) (hhi : a.toNat < 0xF000) (hopen : s.wramBlocked = false) :
    deriveWAt s.params s.geo s.banks (nibble a) = .win .wram
      (if a.toNat < 0xD000 then -0xC000 else if a.toNat < 0xE000 then s.banks.wramEff * 0x1000 - 0xD000
       else -0xE000) := by
  rw [deriveWAt_wramBus hlo hhi, ← State.wramBlocked, hopen, if_neg (by decide), baseW_wram hlo hhi]

/-- With no DMA active no bus group is blocked (20_memory.md R72). -/
theorem not_blocked_of_off (h : s.banks.oamDmaSrc = .off) :
    s.romBlocked = false ∧ s.sramBlocked = false ∧ s.wramBlocked = false := by
  rw [State.romBlocked, State.sramBlocked, State.wramBlocked, h]
  exact blocked_off _ _

theorem readEntry_derive (s : State) (a : Addr) : s.derive.readEntry a = deriveRAt s.params s.geo s.banks (nibble a) :=
  State.readEntry_of_derived (s := s.derive) rfl a

theorem writeEntry_derive (s : State) (a : Addr) :
    s.derive.writeEntry a = deriveWAt s.params s.geo s.banks (nibble a) :=
  State.writeEntry_of_derived (s := s.derive) rfl a

end

/-- Settles O15, by the base entry of each range. -/
theorem baseWindows : Obligations.BaseWindows := by
  intro s a hoff
  obtain ⟨hrom, hsram, hwram⟩ := not_blocked_of_off hoff
  rw [readEntry_derive, writeEntry_derive]
  refine ⟨fun ha => deriveRAt_rom0 ha hrom, fun hlo hhi => deriveRAt_rom hlo hhi hrom,
    fun ha => (deriveWAt_low ha).trans (baseW_low ha),
    fun hlo hhi => (deriveRAt_vramBus hlo hhi).trans (baseR_vram hlo hhi),
    fun hlo hhi => ⟨deriveRAt_sram hlo hhi hsram, deriveWAt_sram hlo hhi hsram⟩,
    fun hlo hhi => ?bank0, fun hlo hhi => ?switchable, fun hlo hhi => ?echo,
    fun hlo => ⟨(deriveRAt_high hlo).trans (baseR_high hlo), (deriveWAt_high hlo).trans (baseW_high hlo)⟩⟩
  all_goals rw [deriveRAt_wram (by omega) (by omega) hwram, deriveWAt_wram (by omega) (by omega) hwram]
  case bank0 => rw [if_pos hhi]; exact ⟨rfl, rfl⟩
  case switchable => rw [if_neg (by omega), if_pos hhi]; exact ⟨rfl, rfl⟩
  case echo => rw [if_neg (by omega), if_neg (by omega)]; exact ⟨rfl, rfl⟩

/-! ## Contention (R73, R74) -/

/-- The source sets of R73 and R74, in each mode. -/
theorem blocked_iff_mem (p : Params) (g : Geometry) (src : DmaSrc) :
    (blockedRom p g src = true ↔ src ∈ if g.isCgb then
      (if p.cgbExtBus then [DmaSrc.rom, .sram, .invalid] else [.rom, .invalid])
      else [.rom, .sram, .wram, .invalid]) ∧
    (blockedSram p g src = true ↔ src ∈ if g.isCgb then
      (if p.cgbExtBus then [DmaSrc.rom, .sram, .invalid] else [.sram, .invalid])
      else [.rom, .sram, .wram, .invalid]) ∧
    (blockedWram p g src = true ↔ src ∈ if g.isCgb then [DmaSrc.wram, .invalid]
      else [.rom, .sram, .wram, .invalid]) := by
  rw [blockedRom.eq_def, blockedSram.eq_def, blockedWram.eq_def]
  cases g.isCgb <;> cases p.cgbExtBus <;> cases src <;> decide

/-- Settles O16: a group's entries are slow where its source set holds the source, and the base entries do not look at
the source. -/
theorem contentionWindows : Obligations.ContentionWindows := by
  intro s a src off GR GS GW
  obtain ⟨hGR, hGS, hGW⟩ := blocked_iff_mem s.params s.geo src
  simp only [readEntry_derive, writeEntry_derive]
  refine ⟨fun ha => ?rom, fun ha => ?low, fun hlo hhi => ?vram, fun hlo hhi => ?sram, fun hlo hhi => ?wram,
    fun hlo => ?high⟩
  case rom => rw [deriveRAt_romBus ha, deriveRAt_romBus ha]; exact if_congr hGR rfl rfl
  case low => rw [deriveWAt_low ha, deriveWAt_low ha]; rfl
  case vram => rw [deriveRAt_vramBus hlo hhi, deriveRAt_vramBus hlo hhi]; rfl
  case sram =>
    rw [deriveRAt_sramBus hlo hhi, deriveRAt_sramBus hlo hhi, deriveWAt_sramBus hlo hhi, deriveWAt_sramBus hlo hhi]
    exact ⟨if_congr hGS rfl rfl, if_congr hGS rfl rfl⟩
  case wram =>
    rw [deriveRAt_wramBus hlo hhi, deriveRAt_wramBus hlo hhi, deriveWAt_wramBus hlo hhi, deriveWAt_wramBus hlo hhi]
    exact ⟨if_congr hGW rfl rfl, if_congr hGW rfl rfl⟩
  case high =>
    rw [deriveRAt_high hlo, deriveRAt_high hlo, deriveWAt_high hlo, deriveWAt_high hlo]
    exact ⟨rfl, rfl⟩

/-! ## Windows stay inside their regions (R77) -/

/-- Byte `i` of region `r` exists. -/
def Region.Has (r : Region) (g : Geometry) (i : Int) : Prop := 0 ≤ i ∧ i < (r.length g : Int)

section
variable {s : State} {a : Addr}

/-- The cartridge-RAM bank selected exists, where there is cartridge RAM (10_state.md R24). -/
theorem rambank_lt (hl : s.loaded = true) (hb : BanksLegal s) (hram : s.geo.ramBanks ≠ 0) :
    s.banks.rambank.toNat < s.geo.ramBanks.toNat := by
  obtain ⟨-, -, -, -, -, hbank, -⟩ := hb hl
  exact hbank.resolve_left fun h0 => hram (BitVec.eq_of_toNat_eq h0)

theorem sram_has (hl : s.loaded = true) (hb : BanksLegal s) (hram : s.geo.ramBanks ≠ 0) (hlo : 0xA000 ≤ a.toNat)
    (hhi : a.toNat < 0xC000) : Region.Has .sram s.geo (s.banks.rambank.toNat * 0x2000 - 0xA000 + a.toNat) := by
  have hbank := rambank_lt hl hb hram
  constructor
  · omega
  · rw [Region.length]; omega

/-- A read window with no DMA maps bytes that exist. -/
theorem baseR_has (hl : s.loaded = true) (hb : BanksLegal s) {r : Region} {bias : Int}
    (h : baseR s.geo s.banks (nibble a) = .win r bias) : r.Has s.geo (bias + a.toNat) := by
  obtain ⟨-, hwram2, -, hrom0, hrom, -, hwram⟩ := hb hl
  have hn := nibble_eq a
  have ha := a.isLt
  rw [baseR, ramR_eq] at h
  split_ifs at h with _ _ _ _ _ _ habsent
  case neg => cases h; exact sram_has hl hb habsent (by omega) (by omega)
  all_goals
    cases h
    constructor
    · omega
    · rw [Region.length]; omega

/-- A write window with no DMA maps bytes that exist. -/
theorem baseW_has (hl : s.loaded = true) (hb : BanksLegal s) {r : Region} {bias : Int}
    (h : baseW s.geo s.banks (nibble a) = .win r bias) : r.Has s.geo (bias + a.toNat) := by
  obtain ⟨-, hwram2, -, -, -, -, hwram⟩ := hb hl
  have hn := nibble_eq a
  have ha := a.isLt
  rw [baseW, ramW] at h
  split_ifs at h with _ _ _ _ hoff
  case neg => cases h; exact sram_has hl hb (not_or.mp hoff).1 (by omega) (by omega)
  all_goals
    cases h
    constructor
    · omega
    · rw [Region.length]; omega

/-- A window of the derived table is the one with no DMA: contention only slows entries down. -/
theorem baseR_of_deriveRAt {p : Params} {g : Geometry} {b : Banks} {n : Nat} {r : Region} {bias : Int}
    (h : deriveRAt p g b n = .win r bias) : baseR g b n = .win r bias := by
  unfold deriveRAt at h
  split_ifs at h <;> exact h

theorem baseW_of_deriveWAt {p : Params} {g : Geometry} {b : Banks} {n : Nat} {r : Region} {bias : Int}
    (h : deriveWAt p g b n = .win r bias) : baseW g b n = .win r bias := by
  unfold deriveWAt at h
  split_ifs at h <;> exact h

/-- Settles O14, for every window of the derived table is a base window. -/
theorem windowsInBounds : Obligations.WindowsInBounds := by
  intro s a r bias hl hb h
  rw [readEntry_derive, writeEntry_derive] at h
  obtain h | h := h
  · exact baseR_has hl hb (baseR_of_deriveRAt h)
  · exact baseW_has hl hb (baseW_of_deriveWAt h)

end

end Sys2Proof.Machine
end

section
/-! PROOFS. Every bus read answers a byte (41_bus_access.md R160 to R180): the bytes of the Backing Store it looks at
exist, and it uses at most one free value. -/

namespace Sys2Proof.Machine

/-! ## The bytes behind the slow path exist -/

section
variable {s : State} {a : Addr}

theorem vramIndex_has (g : Geometry) (b : Banks) (hlo : 0x8000 ≤ a.toNat) (hhi : a.toNat < 0xA000) :
    Region.Has .vram g (vramIndex b a) := by
  have hbank := b.vrambank.isLt
  rw [vramIndex]
  constructor
  · omega
  · rw [Region.length]; omega

theorem echoIndex_has (hl : s.loaded = true) (hb : BanksLegal s) (hlo : 0xF000 ≤ a.toNat) (hhi : a.toNat < 0xFE00) :
    Region.Has .wram s.geo (echoIndex s.banks a) := by
  obtain ⟨-, -, -, -, -, -, hwram⟩ := hb hl
  rw [echoIndex]
  constructor
  · omega
  · rw [Region.length]; omega

theorem hiIndex_has (g : Geometry) (hlo : 0xFE00 ≤ a.toNat) : Region.Has .hi g (hiIndex a) := by
  have ha := a.isLt
  rw [hiIndex]
  constructor
  · omega
  · rw [Region.length]; omega

theorem hramIndex_has (g : Geometry) (p : Byte) : Region.Has .hi g (hramIndex p) := by
  have hp := p.isLt
  rw [hramIndex]
  constructor
  · omega
  · rw [Region.length]; omega

end

/-! ## Reads answer -/

/-- A read answers a byte and leaves the state as it was, but for at most one free value used. -/
def Answers (s : State) (x : Except Abort (Byte × State)) : Prop :=
  ∃ v n, x = .ok (v, { s with draws := n }) ∧ (n = s.draws ∨ n = s.draws + 1)

section
variable {s : State} {a : Addr}

theorem Answers.pure (v : Byte) (s : State) : Answers s (.ok (v, s)) := ⟨v, s.draws, rfl, .inl rfl⟩

theorem Answers.drawByte (s : State) : Answers s (.ok s.drawByte) := ⟨_, _, rfl, .inr rfl⟩

theorem Answers.drawUnder (mask known : Byte) (s : State) : Answers s (.ok (s.drawUnder mask known)) :=
  ⟨_, _, rfl, .inr rfl⟩

theorem Answers.readArena {r : Region} {i : Int} (h : r.Has s.geo i) :
    Answers s (do return (← s.readArena r i, s)) := by
  rw [State.readArena_ok h.1 h.2]
  exact Answers.pure _ s

theorem timaAt_answers (c : Cycle) (s : State) : Answers s (.ok (timaAt c s)) := by
  unfold timaAt
  split_ifs
  · exact Answers.pure _ s
  · exact Answers.drawByte s
  · exact Answers.pure _ s

theorem ffRead_answers (p : Byte) (c : Cycle) (s : State) : Answers s (ffRead p c s) := by
  rw [ffRead]
  cases ioReg s.geo.isCgb p with
  | sb | div | tma | dma | intEnable | delegated => exact Answers.pure _ s
  | sc | tac | intFlag | vbk | svbk => exact Answers.drawUnder _ _ s
  | tima => exact timaAt_answers c s
  | hram => exact Answers.readArena (hramIndex_has s.geo p)

theorem slowReadVram_answers (hlo : 0x8000 ≤ a.toNat) (hhi : a.toNat < 0xA000) : Answers s (slowReadVram a s) := by
  rw [slowReadVram]
  split_ifs
  · exact Answers.drawByte s
  · exact Answers.readArena (vramIndex_has _ _ hlo hhi)
  · exact Answers.pure _ s

theorem slowReadEcho_answers (hl : s.loaded = true) (hb : BanksLegal s) (hlo : 0xF000 ≤ a.toNat)
    (hhi : a.toNat < 0xFE00) : Answers s (slowReadEcho a s) := by
  rw [slowReadEcho]
  split_ifs
  · exact Answers.drawByte s
  · exact Answers.readArena (echoIndex_has hl hb hlo hhi)

theorem slowReadOam_answers (hlo : 0xFE00 ≤ a.toNat) : Answers s (slowReadOam a s) := by
  rw [slowReadOam]
  split_ifs
  · exact Answers.drawByte s
  · exact Answers.readArena (hiIndex_has _ hlo)
  · exact Answers.pure _ s

theorem slowRead_answers (hl : s.loaded = true) (hb : BanksLegal s) (a : Addr) (c : Cycle) :
    Answers s (slowRead a c s) := by
  rw [slowRead]
  split_ifs
  · exact Answers.drawByte s
  · exact slowReadVram_answers (by omega) (by omega)
  · exact Answers.drawByte s
  · exact Answers.pure _ s
  · exact Answers.drawByte s
  · exact slowReadEcho_answers hl hb (by omega) (by omega)
  · exact slowReadOam_answers (by omega)
  · exact Answers.pure _ s
  · exact ffRead_answers _ c s

/-- The read entry of every address maps a byte that exists (20_memory.md R77). -/
theorem readEntry_has (hl : s.loaded = true) (ht : TableDerived s) (hb : BanksLegal s) {r : Region} {bias : Int}
    (h : s.readEntry a = .win r bias) : r.Has s.geo (bias + a.toNat) := by
  rw [State.readEntry_of_derived (ht hl)] at h
  exact baseR_has hl hb (baseR_of_deriveRAt h)

theorem busRead_answers (hl : s.loaded = true) (ht : TableDerived s) (hb : BanksLegal s) (a : Addr) (c : Cycle) :
    Answers s (busRead a c s) := by
  rw [busRead]
  cases hentry : s.readEntry a with
  | win r bias => exact Answers.readArena (readEntry_has hl ht hb hentry)
  | slow => exact slowRead_answers hl hb a c

/-- Settles O17, for every read of the bus answers. -/
theorem readCompletes : Obligations.ReadCompletes := by
  intro s a c h hc hs
  obtain ⟨v, n, hread, hn⟩ := busRead_answers (s := s.begun c) h.2.1 hs.table hs.banks a c
  exact ⟨_, v, exec_read h hc hread, rfl, hn⟩

end

end Sys2Proof.Machine
end

section
/-! PROOFS. What a bus access does at each address (41_bus_access.md R160 to R181): through the window its entry names,
or by the handler of its range. -/

namespace Sys2Proof.Machine

section
variable {s : State} {a : Addr} {v : Byte} {c : Cycle}

/-! ## The handler of each range -/

theorem slowRead_vram (hlo : 0x8000 ≤ a.toNat) (hhi : a.toNat < 0xA000) : slowRead a c s = slowReadVram a s := by
  rw [slowRead, if_neg (by omega), if_pos hhi]

theorem slowRead_echo (hlo : 0xF000 ≤ a.toNat) (hhi : a.toNat < 0xFE00) : slowRead a c s = slowReadEcho a s := by
  rw [slowRead, if_neg (by omega), if_neg (by omega), if_neg (by omega), if_neg (by omega), if_pos hhi]

theorem slowRead_oam (hlo : 0xFE00 ≤ a.toNat) (hhi : a.toNat < 0xFEA0) : slowRead a c s = slowReadOam a s := by
  rw [slowRead, if_neg (by omega), if_neg (by omega), if_neg (by omega), if_neg (by omega), if_neg (by omega),
    if_pos hhi]

theorem slowRead_io (hlo : 0xFF00 ≤ a.toNat) : slowRead a c s = ffRead (a.extractLsb' 0 8) c s := by
  rw [slowRead, if_neg (by omega), if_neg (by omega), if_neg (by omega), if_neg (by omega), if_neg (by omega),
    if_neg (by omega), if_neg (by omega)]

theorem slowWrite_cart (ha : a.toNat < 0x8000) : slowWrite a v c s = .ok (s.emitCart a v c) := by
  rw [slowWrite, if_pos ha]

theorem slowWrite_vram (hlo : 0x8000 ≤ a.toNat) (hhi : a.toNat < 0xA000) :
    slowWrite a v c s = slowWriteVram a v s := by
  rw [slowWrite, if_neg (by omega), if_pos hhi]

/-- An open write to cartridge RAM on the slow path is one to the selected clock (R174). -/
theorem slowWrite_sram (hlo : 0xA000 ≤ a.toNat) (hhi : a.toNat < 0xC000) (hopen : s.sramBlocked = false) :
    slowWrite a v c s = .ok (s.emitCart a v c) := by
  rw [slowWrite, if_neg (by omega), if_neg (by omega), if_pos hhi, hopen, if_neg (by decide)]

theorem slowWrite_echo (hlo : 0xF000 ≤ a.toNat) (hhi : a.toNat < 0xFE00) :
    slowWrite a v c s = slowWriteEcho a v s := by
  rw [slowWrite, if_neg (by omega), if_neg (by omega), if_neg (by omega), if_neg (by omega), if_pos hhi]

theorem slowWrite_oam (hlo : 0xFE00 ≤ a.toNat) (hhi : a.toNat < 0xFEA0) : slowWrite a v c s = slowWriteOam a v s := by
  rw [slowWrite, if_neg (by omega), if_neg (by omega), if_neg (by omega), if_neg (by omega), if_neg (by omega),
    if_pos hhi]

theorem slowWrite_unusable (hlo : 0xFEA0 ≤ a.toNat) (hhi : a.toNat < 0xFF00) : slowWrite a v c s = .ok s := by
  rw [slowWrite, if_neg (by omega), if_neg (by omega), if_neg (by omega), if_neg (by omega), if_neg (by omega),
    if_neg (by omega), if_pos hhi]

theorem slowWrite_io (hlo : 0xFF00 ≤ a.toNat) : slowWrite a v c s = ffWrite (a.extractLsb' 0 8) v c s := by
  rw [slowWrite, if_neg (by omega), if_neg (by omega), if_neg (by omega), if_neg (by omega), if_neg (by omega),
    if_neg (by omega), if_neg (by omega)]

/-! ## Through the derived table -/

section
variable (ht : s.table = deriveTable s.params s.geo s.banks)
include ht

theorem busRead_of_window {r : Region} {bias : Int} (h : deriveRAt s.params s.geo s.banks (nibble a) = .win r bias) :
    busRead a c s = do return (← s.readArena r (bias + a.toNat), s) := by
  rw [busRead, State.readEntry_of_derived ht, h]

theorem busRead_of_slow (h : deriveRAt s.params s.geo s.banks (nibble a) = .slow) : busRead a c s = slowRead a c s := by
  rw [busRead, State.readEntry_of_derived ht, h]

theorem busWrite_of_window {r : Region} {bias : Int} (h : deriveWAt s.params s.geo s.banks (nibble a) = .win r bias) :
    busWrite a v c s = s.writeArena r (bias + a.toNat) v := by
  rw [busWrite, State.writeEntry_of_derived ht, h]

theorem busWrite_of_discard (h : deriveWAt s.params s.geo s.banks (nibble a) = .discard) :
    busWrite a v c s = .ok s := by
  rw [busWrite, State.writeEntry_of_derived ht, h]

theorem busWrite_of_slow (h : deriveWAt s.params s.geo s.banks (nibble a) = .slow) :
    busWrite a v c s = slowWrite a v c s := by
  rw [busWrite, State.writeEntry_of_derived ht, h]

theorem busRead_vram (hlo : 0x8000 ≤ a.toNat) (hhi : a.toNat < 0xA000) : busRead a c s = slowReadVram a s :=
  (busRead_of_slow ht ((deriveRAt_vramBus hlo hhi).trans (baseR_vram hlo hhi))).trans (slowRead_vram hlo hhi)

theorem busRead_high (hlo : 0xF000 ≤ a.toNat) : busRead a c s = slowRead a c s :=
  busRead_of_slow ht ((deriveRAt_high hlo).trans (baseR_high hlo))

theorem busWrite_low (ha : a.toNat < 0xA000) : busWrite a v c s = slowWrite a v c s :=
  busWrite_of_slow ht ((deriveWAt_low ha).trans (baseW_low ha))

theorem busWrite_high (hlo : 0xF000 ≤ a.toNat) : busWrite a v c s = slowWrite a v c s :=
  busWrite_of_slow ht ((deriveWAt_high hlo).trans (baseW_high hlo))

end

/-! ## Plain storage -/

/-- The byte of WRAM that an address in 0xC000-0xFDFF names: bank 0, the switchable bank, and the echoes of both
(20_memory.md R70, R71; 41_bus_access.md R165, R176). -/
def wramIndex (b : Banks) (a : Addr) : Int :=
  if a.toNat < 0xD000 then a.toNat - 0xC000
  else if a.toNat < 0xE000 then b.wramEff * 0x1000 + (a.toNat - 0xD000)
  else if a.toNat < 0xF000 then a.toNat - 0xE000
  else echoIndex b a

/-- The byte of SRAM that an address in 0xA000-0xBFFF names (20_memory.md R68, R69). -/
def sramIndex (b : Banks) (a : Addr) : Int := b.rambank.toNat * 0x2000 + (a.toNat - 0xA000)

theorem wramIndex_has (hl : s.loaded = true) (hb : BanksLegal s) (hlo : 0xC000 ≤ a.toNat) (hhi : a.toNat < 0xFE00) :
    Region.Has .wram s.geo (wramIndex s.banks a) := by
  obtain ⟨-, hwram2, -, -, -, -, hwram⟩ := hb hl
  rw [wramIndex, echoIndex, Region.Has, Region.length]
  split_ifs <;> omega

theorem sramIndex_has (hl : s.loaded = true) (hb : BanksLegal s) (hram : s.geo.ramBanks ≠ 0) (hlo : 0xA000 ≤ a.toNat)
    (hhi : a.toNat < 0xC000) : Region.Has .sram s.geo (sramIndex s.banks a) := by
  have hhas := sram_has hl hb hram hlo hhi
  rwa [show _ - 0xA000 + (a.toNat : Int) = sramIndex s.banks a by rw [sramIndex]; omega] at hhas

/-- The address 0x2000 above one in 0xC000-0xDDFF echoes it (20_memory.md R70, 41_bus_access.md R165). -/
theorem wramIndex_echo {b : Addr} (k : Banks) (hlo : 0xC000 ≤ a.toNat) (hhi : a.toNat < 0xDE00)
    (hb : b.toNat = a.toNat + 0x2000) : wramIndex k b = wramIndex k a := by
  rw [wramIndex, wramIndex, echoIndex, hb]
  split_ifs <;> omega

/-- The bias of a working-RAM window leads to the byte its address names. -/
theorem wram_bias (b : Banks) (hhi : a.toNat < 0xF000) :
    (if a.toNat < 0xD000 then -0xC000 else if a.toNat < 0xE000 then b.wramEff * 0x1000 - 0xD000 else -0xE000 : Int)
      + a.toNat = wramIndex b a := by
  rw [wramIndex, if_pos hhi]
  split_ifs <;> omega

theorem slowReadEcho_open (hopen : s.wramBlocked = false) :
    slowReadEcho a s = do return (← s.readArena .wram (echoIndex s.banks a), s) := by
  rw [slowReadEcho, hopen, if_neg (by decide)]

theorem slowWriteEcho_open (hopen : s.wramBlocked = false) :
    slowWriteEcho a v s = s.writeArena .wram (echoIndex s.banks a) v := by
  rw [slowWriteEcho, hopen, if_neg (by decide)]

section
variable (ht : s.table = deriveTable s.params s.geo s.banks)
include ht

theorem busRead_wram (hlo : 0xC000 ≤ a.toNat) (hhi : a.toNat < 0xFE00) (hopen : s.wramBlocked = false) :
    busRead a c s = do return (← s.readArena .wram (wramIndex s.banks a), s) := by
  by_cases hwin : a.toNat < 0xF000
  · rw [busRead_of_window ht (deriveRAt_wram hlo hwin hopen), wram_bias s.banks hwin]
  · rw [busRead_high ht (by omega), slowRead_echo (by omega) hhi, slowReadEcho_open hopen, wramIndex,
      if_neg (by omega), if_neg (by omega), if_neg hwin]

theorem busWrite_wram (hlo : 0xC000 ≤ a.toNat) (hhi : a.toNat < 0xFE00) (hopen : s.wramBlocked = false) :
    busWrite a v c s = s.writeArena .wram (wramIndex s.banks a) v := by
  by_cases hwin : a.toNat < 0xF000
  · rw [busWrite_of_window ht (deriveWAt_wram hlo hwin hopen), wram_bias s.banks hwin]
  · rw [busWrite_high ht (by omega), slowWrite_echo (by omega) hhi, slowWriteEcho_open hopen, wramIndex,
      if_neg (by omega), if_neg (by omega), if_neg hwin]

theorem busRead_sram (hlo : 0xA000 ≤ a.toNat) (hhi : a.toNat < 0xC000) (hopen : s.sramBlocked = false)
    (hclock : rtcEn s.banks.ramFlags = false) (hon : readEn s.banks.ramFlags = true) (hram : s.geo.ramBanks ≠ 0) :
    busRead a c s = do return (← s.readArena .sram (sramIndex s.banks a), s) := by
  have hentry : deriveRAt s.params s.geo s.banks (nibble a) = .win .sram (s.banks.rambank.toNat * 0x2000 - 0xA000) := by
    rw [deriveRAt_sram hlo hhi hopen, ramR, if_neg (by simp [hclock]), if_neg (not_or.mpr ⟨hram, by simp [hon]⟩)]
  rw [busRead_of_window ht hentry, sramIndex]
  congr 2; omega

theorem busWrite_sram (hlo : 0xA000 ≤ a.toNat) (hhi : a.toNat < 0xC000) (hopen : s.sramBlocked = false)
    (hclock : rtcEn s.banks.ramFlags = false) (hon : writeEn s.banks.ramFlags = true) (hram : s.geo.ramBanks ≠ 0) :
    busWrite a v c s = s.writeArena .sram (sramIndex s.banks a) v := by
  have hentry : deriveWAt s.params s.geo s.banks (nibble a) = .win .sram (s.banks.rambank.toNat * 0x2000 - 0xA000) := by
    rw [deriveWAt_sram hlo hhi hopen, ramW, if_neg (by simp [hclock]), if_neg (not_or.mpr ⟨hram, by simp [hon]⟩)]
  rw [busWrite_of_window ht hentry, sramIndex]
  congr 1; omega

theorem busRead_vram_open (hlo : 0x8000 ≤ a.toNat) (hhi : a.toNat < 0xA000) (hsrc : s.banks.oamDmaSrc ≠ .vram)
    (hok : s.inputs.vramOk = true) : busRead a c s = do return (← s.readArena .vram (vramIndex s.banks a), s) := by
  rw [busRead_vram ht hlo hhi, slowReadVram, if_neg hsrc, if_pos hok]

theorem busWrite_vram (hlo : 0x8000 ≤ a.toNat) (hhi : a.toNat < 0xA000) (hsrc : s.banks.oamDmaSrc ≠ .vram) :
    busWrite a v c s = if s.inputs.vramOk then s.writeArena .vram (vramIndex s.banks a) v else .ok s := by
  rw [busWrite_low ht hhi, slowWrite_vram hlo hhi, slowWriteVram, if_neg hsrc]

theorem busRead_oam_open (hlo : 0xFE00 ≤ a.toNat) (hhi : a.toNat < 0xFEA0) (hsrc : s.banks.oamDmaSrc = .off)
    (hok : s.inputs.oamOk = true) : busRead a c s = do return (← s.readArena .hi (hiIndex a), s) := by
  rw [busRead_high ht (by omega), slowRead_oam hlo hhi, slowReadOam, if_neg (not_not.mpr hsrc), if_pos hok]

theorem busWrite_oam (hlo : 0xFE00 ≤ a.toNat) (hhi : a.toNat < 0xFEA0) (hsrc : s.banks.oamDmaSrc = .off) :
    busWrite a v c s = if s.inputs.oamOk then s.writeArena .hi (hiIndex a) v else .ok s := by
  rw [busWrite_high ht (by omega), slowWrite_oam hlo hhi, slowWriteOam, if_neg (not_not.mpr hsrc)]

theorem busRead_io (hlo : 0xFF00 ≤ a.toNat) : busRead a c s = ffRead (a.extractLsb' 0 8) c s := by
  rw [busRead_high ht (by omega), slowRead_io hlo]

theorem busWrite_io (hlo : 0xFF00 ≤ a.toNat) : busWrite a v c s = ffWrite (a.extractLsb' 0 8) v c s := by
  rw [busWrite_high ht (by omega), slowWrite_io hlo]

end

/-- An address of HRAM, 0xFF80-0xFFFE, names an HRAM offset in both modes, and that offset's byte. -/
theorem ioReg_of_hram_addr (cgb : Bool) (hlo : 0xFF80 ≤ a.toNat) (hhi : a.toNat < 0xFFFF) :
    ioReg cgb (a.extractLsb' 0 8) = .hram ∧ hramIndex (a.extractLsb' 0 8) = hiIndex a := by
  have hlow : (a.extractLsb' 0 8).toNat = a.toNat % 256 := by simp [BitVec.extractLsb'_toNat]
  refine ⟨ioReg_hram cgb _ (by omega) fun h => ?_, by rw [hramIndex, hiIndex, hlow]; omega⟩
  rw [h, show (0xFF : Byte).toNat = 255 from rfl] at hlow
  omega

theorem busRead_hram (ht : s.table = deriveTable s.params s.geo s.banks) (hlo : 0xFF80 ≤ a.toNat)
    (hhi : a.toNat < 0xFFFF) : busRead a c s = do return (← s.readArena .hi (hiIndex a), s) := by
  obtain ⟨hreg, hindex⟩ := ioReg_of_hram_addr s.geo.isCgb hlo hhi
  rw [busRead_io ht (by omega), ffRead, hreg, hindex]

theorem busWrite_hram (ht : s.table = deriveTable s.params s.geo s.banks) (hlo : 0xFF80 ≤ a.toNat)
    (hhi : a.toNat < 0xFFFF) : busWrite a v c s = s.writeArena .hi (hiIndex a) v := by
  obtain ⟨hreg, hindex⟩ := ioReg_of_hram_addr s.geo.isCgb hlo hhi
  rw [busWrite_io ht (by omega), ffWrite, hreg, hindex]

end

end Sys2Proof.Machine
end

section
/-! PROOFS. Every bus write completes, but one that selects a WRAM bank the cartridge has not (41_bus_access.md R170 to
R191), and no step of a state that meets the invariants stops (20_memory.md R77). -/

namespace Sys2Proof.Machine

/-! ## Writes complete -/

/-- A body that answers a state. -/
def Completes (x : Except Abort State) : Prop := ∃ t, x = .ok t

/-- A write of `v` to I/O offset `p` that selects a WRAM bank the cartridge has not (41_bus_access.md R191). -/
def SvbkAbsent (s : State) (p v : Byte) : Prop :=
  s.geo.isCgb = true ∧ p = 0x70 ∧ s.geo.wramBanks.toNat ≤ max (v.toNat % 8) 1

section
variable {s : State} {a : Addr} {p v : Byte}

theorem Completes.ok (t : State) : Completes (.ok t) := ⟨t, rfl⟩

theorem Completes.writeArena {r : Region} {i : Int} (h : r.Has s.geo i) (v : Byte) : Completes (s.writeArena r i v) :=
  ⟨_, State.writeArena_ok v h.1 h.2⟩

theorem Completes.writeArenaMaybe {r : Region} {i : Int} (h : r.Has s.geo i) (v : Byte) :
    Completes (s.writeArenaMaybe r i v) :=
  ⟨_, State.writeArenaMaybe_ok v h.1 h.2⟩

/-- SVBK is a register in CGB mode, at offset 0x70 (30_encoding.md R108). -/
theorem ioReg_eq_svbk_iff : ∀ (cgb : Bool) (p : Byte), ioReg cgb p = .svbk ↔ cgb = true ∧ p = 0x70 := by
  decide +kernel

/-- The bank a write of `v` to SVBK selects (10_state.md R25). -/
theorem wramBankOf_svbk (v : Byte) :
    wramBankOf ((BitVec.setWidth 16 (v.extractLsb' 0 3)).extractLsb' 0 3) = max (v.toNat % 8) 1 := by
  rw [wramBankOf_low]
  simp [BitVec.extractLsb'_toNat]

/-- Both values of a VBK write are VRAM banks (41_bus_access.md R190). -/
theorem selectVrambank_vbk (v : Byte) (s : State) :
    Completes (selectVrambank ((v.extractLsb' 0 1).setWidth 16) s) := by
  have hbank : ¬1 < ((v.extractLsb' 0 1).setWidth 16).toNat := by
    have := (v.extractLsb' 0 1).isLt
    rw [BitVec.toNat_setWidth]; omega
  exact ⟨_, if_neg hbank⟩

theorem ffWrite_completes (c : Cycle) (h : ¬SvbkAbsent s p v) : Completes (ffWrite p v c s) := by
  rw [ffWrite]
  cases hreg : ioReg s.geo.isCgb p with
  | sb | sc | div | tima | tma | tac | intFlag | dma | intEnable | delegated => exact .ok _
  | vbk => exact selectVrambank_vbk v s
  | svbk =>
    obtain ⟨hcgb, hp⟩ := (ioReg_eq_svbk_iff ..).mp hreg
    exact ⟨_, if_neg (by rw [wramBankOf_svbk]; exact fun hle => h ⟨hcgb, hp, hle⟩)⟩
  | hram => exact .writeArena (hramIndex_has s.geo p) v

/-- A write of SVBK that selects an absent bank raises F_BANK with the bank value. -/
theorem ffWrite_absent (c : Cycle) (h : SvbkAbsent s p v) :
    ffWrite p v c s = .error (.raise .bank (.bank ((v.extractLsb' 0 3).setWidth 16))) := by
  obtain ⟨hcgb, hp, hle⟩ := h
  rw [ffWrite, (ioReg_eq_svbk_iff ..).mpr ⟨hcgb, hp⟩]
  exact if_pos (by rw [wramBankOf_svbk]; exact hle)

theorem slowWriteVram_completes (v : Byte) (hlo : 0x8000 ≤ a.toNat) (hhi : a.toNat < 0xA000) :
    Completes (slowWriteVram a v s) := by
  rw [slowWriteVram]
  split_ifs
  · exact .writeArenaMaybe (vramIndex_has _ _ hlo hhi) v
  · exact .writeArena (vramIndex_has _ _ hlo hhi) v
  · exact .ok s

theorem slowWriteOam_completes (v : Byte) (hlo : 0xFE00 ≤ a.toNat) : Completes (slowWriteOam a v s) := by
  rw [slowWriteOam]
  split_ifs
  · exact .writeArenaMaybe (hiIndex_has _ hlo) v
  · exact .writeArena (hiIndex_has _ hlo) v
  · exact .ok s

section
variable (hl : s.loaded = true) (hb : BanksLegal s)
include hl hb

theorem contendedWrite_completes (a : Addr) (v : Byte) (c : Cycle) : Completes (contendedWrite a v c s) := by
  rw [contendedWrite]
  cases hentry : baseW s.geo s.banks (nibble a) with
  | win r bias => exact .writeArenaMaybe (baseW_has hl hb hentry) v
  | discard | slow => exact .ok _

theorem slowWriteEcho_completes (v : Byte) (hlo : 0xF000 ≤ a.toNat) (hhi : a.toNat < 0xFE00) :
    Completes (slowWriteEcho a v s) := by
  rw [slowWriteEcho]
  split_ifs
  · exact .writeArenaMaybe (echoIndex_has hl hb hlo hhi) v
  · exact .writeArena (echoIndex_has hl hb hlo hhi) v

theorem slowWrite_completes (c : Cycle) (h : 0xFF00 ≤ a.toNat → ¬SvbkAbsent s (a.extractLsb' 0 8) v) :
    Completes (slowWrite a v c s) := by
  rw [slowWrite]
  split_ifs
  · exact .ok _
  · exact slowWriteVram_completes v (by omega) (by omega)
  · exact contendedWrite_completes hl hb a v c
  · exact .ok _
  · exact contendedWrite_completes hl hb a v c
  · exact slowWriteEcho_completes hl hb v (by omega) (by omega)
  · exact slowWriteOam_completes v (by omega)
  · exact .ok s
  · exact ffWrite_completes c (h (by omega))

theorem busWrite_completes (ht : TableDerived s) (c : Cycle)
    (h : 0xFF00 ≤ a.toNat → ¬SvbkAbsent s (a.extractLsb' 0 8) v) : Completes (busWrite a v c s) := by
  rw [busWrite]
  cases hentry : s.writeEntry a with
  | win r bias =>
    rw [State.writeEntry_of_derived (ht hl)] at hentry
    exact .writeArena (baseW_has hl hb (baseW_of_deriveWAt hentry)) v
  | discard => exact .ok s
  | slow => exact slowWrite_completes hl hb c h

end

end

/-! ## No body stops -/

/-- A body that does not end in a stop of the model: it answers, or it raises. -/
def NoStop {α : Type} (x : Except Abort α) : Prop := ∀ f, x ≠ .error (.stop f)

section
variable {α β : Type} {s : State}

theorem NoStop.ok (r : α) : NoStop (.ok r : Except Abort α) := fun _ => by simp

theorem NoStop.raise (id : FaultId) (info : FaultInfo) : NoStop (.error (.raise id info) : Except Abort α) :=
  fun _ => by simp

theorem NoStop.bind {x : Except Abort α} {f : α → Except Abort β} (hx : NoStop x)
    (hf : ∀ r, x = .ok r → NoStop (f r)) : NoStop (x >>= f) := fun e he => by
  obtain hx' | ⟨r, hr, hfr⟩ := Except.bind_error_inv he
  · exact hx e hx'
  · exact hf r hr e hfr

theorem NoStop.ite {c : Prop} [Decidable c] {x y : Except Abort α} (hx : NoStop x) (hy : NoStop y) :
    NoStop (if c then x else y) := by
  split
  · exact hx
  · exact hy

theorem Completes.noStop {x : Except Abort State} (h : Completes x) : NoStop x := by
  obtain ⟨t, rfl⟩ := h
  exact .ok t

theorem Answers.noStop {x : Except Abort (Byte × State)} (h : Answers s x) : NoStop x := by
  obtain ⟨v, n, rfl, -⟩ := h
  exact .ok _

theorem tick_noStop (c : Cycle) (s : State) : NoStop (s.tick c) := .ite (.raise _ _) (.ok _)

theorem checkLyView_noStop (c : Cycle) (s : State) : NoStop (s.checkLyView c) := .ite (.ok _) (.raise _ _)

theorem ffWrite_noStop (p v : Byte) (c : Cycle) (s : State) : NoStop (ffWrite p v c s) := by
  by_cases h : SvbkAbsent s p v
  · rw [ffWrite_absent c h]; exact .raise _ _
  · exact (ffWrite_completes c h).noStop

section
variable (hl : s.loaded = true) (ht : TableDerived s) (hb : BanksLegal s)
include hl ht hb

theorem busWrite_noStop (a : Addr) (v : Byte) (c : Cycle) : NoStop (busWrite a v c s) := by
  by_cases hio : 0xFF00 ≤ a.toNat
  · rw [busWrite_io (ht hl) hio]; exact ffWrite_noStop _ v c s
  · exact (busWrite_completes hl hb ht c fun h => absurd h hio).noStop

/-- A DMA step completes: its source byte and the OAM byte it stores exist (42_scheduler.md R236, R237). -/
theorem dmaDispatch_completes (c : Cycle) : Completes (dmaDispatch c s) := by
  have haddr : dmaSourceAddr s.dma < 0x10000 := by
    have := s.dma.dmaReg.isLt
    have := s.dma.dmaPos.isLt
    rw [dmaSourceAddr]; omega
  obtain ⟨v, u, hread⟩ := dmaSourceByte_total (s := s.setDmaSrc (dmaClass s.dma.dmaReg)) hl hb haddr
  rw [dmaSourceByte_state hread] at hread
  exact ⟨_, dmaDispatch_eq (ht hl) hread⟩

theorem dispatchDue_noStop (c : Cycle) : NoStop (dispatchDue c s) := by
  rw [dispatchDue]
  split
  · cases nextUnit s.time with
    | oamDma => exact (dmaDispatch_completes hl ht hb _).noStop
    | blit | serial | tima | lyc => exact .ok _
  · exact .ok s

end

/-- A `tick` that succeeds leaves the table and the banks as they were. -/
theorem tick_keeps_windows {c : Cycle} {t : State} (h : s.tick c = .ok t) (ht : TableDerived s) (hb : BanksLegal s) :
    t.loaded = s.loaded ∧ TableDerived t ∧ BanksLegal t := by
  obtain ⟨-, -, rfl⟩ := State.tick_inv h
  exact ⟨rfl, ht, hb⟩

/-- No command's body stops, where its lifecycle checks pass and the table and the banks are in order. -/
theorem body_noStop {i : Instr} (hg : (gateOf i).passes s = true) (ht : TableDerived s) (hb : BanksLegal s) :
    NoStop (bodyOf i s) := by
  cases i with
  | reset rom ram wram cgb => exact .ite (.raise _ _) (.ite (.ok _) (.ok _))
  | setRombank0 bank | setRombank bank | setRambank bank flags | setWrambank bank | setVrambank bank =>
    exact .ite (.raise _ _) (.ok _)
  | setOamDmaSrc src =>
    cases hd : DmaSrc.ofCode src.toNat with
    | none => simp only [bodyOf, hd]; exact .raise _ _
    | some d => simp only [bodyOf, hd]; exact .ok _
  | read a c =>
    refine .bind (tick_noStop c s) fun t h => ?_
    obtain ⟨hl, ht, hb⟩ := tick_keeps_windows h ht hb
    exact .bind (busRead_answers (hl.trans (loaded_of_passes hg (.inr rfl))) ht hb a c).noStop fun _ _ => .ok _
  | write a v c =>
    refine .bind (tick_noStop c s) fun t h => ?_
    obtain ⟨hl, ht, hb⟩ := tick_keeps_windows h ht hb
    exact busWrite_noStop (hl.trans (loaded_of_passes hg (.inr rfl))) ht hb a v c
  | ffRead p c => exact .bind (tick_noStop c s) fun t _ => .bind (ffRead_answers p c t).noStop fun _ _ => .ok _
  | ffWrite p v c => exact .bind (tick_noStop c s) fun t _ => ffWrite_noStop p v c t
  | event c =>
    refine .bind (tick_noStop c s) fun t h => ?_
    obtain ⟨hl, ht, hb⟩ := tick_keeps_windows h ht hb
    exact .bind (dispatchDue_noStop (hl.trans (loaded_of_passes hg (.inr rfl))) ht hb c) fun _ _ => .ok _
  | mreset => exact .bind (checkLyView_noStop _ _) fun _ _ => .ok _
  | setDs ds c => exact .bind (tick_noStop c s) fun _ _ => .bind (checkLyView_noStop _ _) fun _ _ => .ok _
  | rebase d => exact .ite (.raise _ _) (.ok _)
  | lycCfg lyc en c => exact .bind (tick_noStop c s) fun _ _ => .bind (checkLyView_noStop _ _) fun _ _ => .ok _
  | ei c | irqIn m c => exact .bind (tick_noStop c s) fun _ _ => .ok _
  | loadState =>
    refine .ite (.ok _) ?_
    cases firstBadField s.params s.geo s.inputs.buf with
    | none => exact .ok _
    | some off => exact .raise _ _
  | nextEventTime | takeFrame | halt | di | ime | halted | stateSize | saveState => exact .ok _

/-- A command whose body does not stop, where its checks pass, answers a next state. -/
theorem runCommand_answers {p : Packet} {g : Gate} {body : State → Except Abort State}
    (h : g.passes s = true → NoStop (body s.clearOutputs)) : ∃ t, runCommand p g body s = .next t := by
  cases hr : runCommand p g body s with
  | next t => exact ⟨t, rfl⟩
  | fault f =>
    obtain ⟨-, hg, hb⟩ := runCommand_fault hr
    exact absurd hb (h hg f)
  | refused r => exact absurd hr runCommand_not_refused

/-- Every command answers a next state, where the table and the banks are in order. -/
theorem exec_answers (i : Instr) (ht : TableDerived s) (hb : BanksLegal s) : ∃ t, exec i s = .next t := by
  rw [exec_eq]
  exact runCommand_answers fun hg => body_noStop (s := s.clearOutputs) (by exact hg) ht hb

end

/-- Settles O11: a packet that does not decode raises, and no command's body stops. -/
theorem noStepStops : Obligations.NoStepStops := by
  intro s hs hne
  obtain ⟨k, rest, hk⟩ := List.exists_cons_of_ne_nil hne
  rw [step_cons hk]
  cases decode k.packet with
  | ok i => exact exec_answers i hs.table hs.banks
  | error e => exact runCommand_answers fun _ => .raise _ _

end Sys2Proof.Machine
end

section
/-! PROOFS. WRITE (41_bus_access.md R170 to R181): what it completes with, where it stores and where it drops the byte,
and that the byte stored is read back. -/

namespace Sys2Proof.Machine

/-! ## A bus write neither counts nor answers -/

/-- The counter and the response, which no bus write changes (41_bus_access.md R170). -/
structure KeepsAnswer (s t : State) : Prop where
  cc : t.cc = s.cc
  rsp : t.outputs.rsp = s.outputs.rsp

theorem KeepsAnswer.refl (s : State) : KeepsAnswer s s := ⟨rfl, rfl⟩

theorem KeepsAnswer.trans {s t u : State} (h : KeepsAnswer s t) (k : KeepsAnswer t u) : KeepsAnswer s u :=
  ⟨k.cc.trans h.cc, k.rsp.trans h.rsp⟩

section
variable {s t : State} {a : Addr} {v : Byte} {c : Cycle}

theorem keepsAnswer_writeArena {r : Region} {i : Int} (h : s.writeArena r i v = .ok t) : KeepsAnswer s t := by
  obtain ⟨-, -, rfl⟩ := State.writeArena_inv h; exact ⟨rfl, rfl⟩

theorem keepsAnswer_writeArenaMaybe {r : Region} {i : Int} (h : s.writeArenaMaybe r i v = .ok t) :
    KeepsAnswer s t := by
  obtain ⟨-, -, rfl⟩ := State.writeArenaMaybe_inv h; exact ⟨rfl, rfl⟩

theorem keepsAnswer_timaCatchUp (n : Nat) (c : Cycle) (s : State) : KeepsAnswer s (timaCatchUp n c s) := by
  induction n generalizing s with
  | zero => exact .refl s
  | succ n ih =>
    unfold timaCatchUp
    split
    · exact KeepsAnswer.trans (t := timaOverflow s.time.tima s) ⟨rfl, rfl⟩ (ih _)
    · exact .refl s

theorem keepsAnswer_timaRun (c : Cycle) (s : State) : KeepsAnswer s (timaRun c s) := by
  unfold timaRun
  split
  · exact (keepsAnswer_timaCatchUp ((c - s.time.tima).toNat + 1) c s).trans ⟨rfl, rfl⟩
  · exact ⟨rfl, rfl⟩

theorem keepsAnswer_divGlitch (c : Cycle) (s : State) : KeepsAnswer s (divGlitch c s) := by
  unfold divGlitch
  split_ifs <;> exact ⟨rfl, rfl⟩

theorem keepsAnswer_serialControl (v : Byte) (c : Cycle) (s : State) : KeepsAnswer s (serialControl v c s) := by
  unfold serialControl
  split <;> exact ⟨rfl, rfl⟩

theorem keepsAnswer_selectVrambank {b : BitVec 16} (h : selectVrambank b s = .ok t) : KeepsAnswer s t := by
  unfold selectVrambank at h
  split at h
  · cases h
  · cases h; exact ⟨rfl, rfl⟩

theorem keepsAnswer_selectWrambank {b : BitVec 16} (h : selectWrambank b s = .ok t) : KeepsAnswer s t := by
  unfold selectWrambank at h
  split at h
  · cases h
  · cases h; exact ⟨rfl, rfl⟩

theorem keepsAnswer_ffWrite {p : Byte} (h : ffWrite p v c s = .ok t) : KeepsAnswer s t := by
  have hrun := keepsAnswer_timaRun c s
  rw [ffWrite] at h
  cases hreg : ioReg s.geo.isCgb p <;> rw [hreg] at h
  case sc => cases h; exact keepsAnswer_serialControl v c s
  case div => cases h; exact (hrun.trans (keepsAnswer_divGlitch c _)).trans ⟨rfl, rfl⟩
  case tima | tma | tac => cases h; exact hrun.trans ⟨rfl, rfl⟩
  case vbk => exact keepsAnswer_selectVrambank h
  case svbk => exact keepsAnswer_selectWrambank h
  case hram => exact keepsAnswer_writeArena h
  case sb | intFlag | dma | intEnable | delegated => cases h; exact ⟨rfl, rfl⟩

theorem keepsAnswer_contendedWrite (h : contendedWrite a v c s = .ok t) : KeepsAnswer s t := by
  rw [contendedWrite] at h
  cases hentry : baseW s.geo s.banks (nibble a) <;> rw [hentry] at h
  case win r bias => exact keepsAnswer_writeArenaMaybe h
  case discard | slow => cases h; exact ⟨rfl, rfl⟩

theorem keepsAnswer_slowWriteVram (h : slowWriteVram a v s = .ok t) : KeepsAnswer s t := by
  rw [slowWriteVram] at h
  split_ifs at h
  · exact keepsAnswer_writeArenaMaybe h
  · exact keepsAnswer_writeArena h
  · cases h; exact .refl s

theorem keepsAnswer_slowWriteEcho (h : slowWriteEcho a v s = .ok t) : KeepsAnswer s t := by
  rw [slowWriteEcho] at h
  split_ifs at h
  · exact keepsAnswer_writeArenaMaybe h
  · exact keepsAnswer_writeArena h

theorem keepsAnswer_slowWriteOam (h : slowWriteOam a v s = .ok t) : KeepsAnswer s t := by
  rw [slowWriteOam] at h
  split_ifs at h
  · exact keepsAnswer_writeArenaMaybe h
  · exact keepsAnswer_writeArena h
  · cases h; exact .refl s

theorem keepsAnswer_slowWrite (h : slowWrite a v c s = .ok t) : KeepsAnswer s t := by
  rw [slowWrite] at h
  split_ifs at h
  · cases h; exact ⟨rfl, rfl⟩
  · exact keepsAnswer_slowWriteVram h
  · exact keepsAnswer_contendedWrite h
  · cases h; exact ⟨rfl, rfl⟩
  · exact keepsAnswer_contendedWrite h
  · exact keepsAnswer_slowWriteEcho h
  · exact keepsAnswer_slowWriteOam h
  · cases h; exact .refl s
  · exact keepsAnswer_ffWrite h

theorem keepsAnswer_busWrite (h : busWrite a v c s = .ok t) : KeepsAnswer s t := by
  rw [busWrite] at h
  cases hentry : s.writeEntry a <;> rw [hentry] at h
  case win r bias => exact keepsAnswer_writeArena h
  case discard => cases h; exact .refl s
  case slow => exact keepsAnswer_slowWrite h

end

/-! ## Completion -/

section
variable {s : State} {a : Addr} {v : Byte} {c : Cycle}

/-- WRITE on a ready block whose bus write raises. -/
theorem exec_write_raise {id : FaultId} {info : FaultInfo} (h : Ready s) (hc : CycleOk c s)
    (hb : busWrite a v c (s.begun c) = .error (.raise id info)) :
    exec (.write a v c) s = .next (s.raise (encode (.write a v c)) id info) :=
  exec_ready_raise h (by simp only [bodyOf, writeBody, tick_begun hc, Except.bind_ok, hb])

/-- Of the addresses of the I/O page 0xFF70 is the one of offset 0x70. -/
theorem eq_svbk_addr_of_low (ha : 0xFF00 ≤ a.toNat) (hlow : a.extractLsb' 0 8 = 0x70) : a = 0xFF70 := by
  rw [← io_address (a := a) (by omega), hlow]
  rfl

/-- Settles O22: every bus write completes but the one that selects an absent WRAM bank. -/
theorem writeCompletes : Obligations.WriteCompletes := by
  intro s a v c h hc hs absent
  refine ⟨fun hpresent => ?completes, fun habsent => ?raises⟩
  case completes =>
    have hbank : 0xFF00 ≤ a.toNat → ¬SvbkAbsent (s.begun c) (a.extractLsb' 0 8) v := fun ha ⟨hcgb, hlow, hle⟩ =>
      hpresent ⟨hcgb, eq_svbk_addr_of_low ha hlow, hle⟩
    obtain ⟨t, ht⟩ := busWrite_completes (s := s.begun c) h.2.1 hs.banks hs.table c hbank
    have hexec := exec_write h hc ht
    have hkeeps := keeps_busWrite ht
    have hanswer := keepsAnswer_busWrite ht
    obtain ⟨-, -, -, hrom, hdisr, -⟩ := geometryAndRomFixed _ s t hs hexec fun _ _ _ _ => Instr.noConfusion
    exact ⟨t, hexec, hanswer.cc, hkeeps.faulted.trans h.1, hanswer.rsp, hkeeps.geo, hkeeps.params,
      hkeeps.loaded.trans h.2.1, hkeeps.running.trans h.2.2, hrom, hdisr⟩
  case raises =>
    obtain ⟨hcgb, rfl, hle⟩ := habsent
    have hwrite : busWrite 0xFF70 v c (s.begun c) = _ :=
      (busWrite_io (a := 0xFF70) (s := s.begun c) (hs.table h.2.1) (by decide)).trans
        (ffWrite_absent c ⟨hcgb, rfl, hle⟩)
    exact ⟨_, exec_write_raise h hc hwrite, rfl⟩

/-! ## Stores -/

/-- The state WRITE leaves where it stores. -/
def State.stored (c : Cycle) (r : Region) (i : Int) (v : Byte) (s : State) : State :=
  { s with cc := c, arena := s.arena.store r i.toNat v, outputs := {} }

theorem exec_write_stored (h : Ready s) (hc : CycleOk c s) {r : Region} {i : Int}
    (hw : busWrite a v c (s.begun c) = (s.begun c).writeArena r i v) (hi : r.Has s.geo i) :
    exec (.write a v c) s = .next (s.stored c r i v) :=
  exec_write h hc (hw.trans (State.writeArena_ok v hi.1 hi.2))

/-- A store changes the byte it names and no other. -/
theorem storesOnly_stored (s : State) (c : Cycle) (r : Region) {i : Int} {j : Nat} (hij : i = j) (v : Byte) :
    StoresOnly s (s.stored c r i v) r j v := by
  subst hij
  exact ⟨Arena.byte_store_same _ _ _ _, fun r' j' hne => Arena.byte_store_other _ _ (Ne.symm hne)⟩

theorem stores_of_exec {r : Region} {i : Int} (hw : exec (.write a v c) s = .next (s.stored c r i v)) {j : Nat}
    (hij : i = j) : ∃ t, exec (.write a v c) s = .next t ∧ t = { s with cc := c, arena := t.arena, outputs := {} } ∧
      StoresOnly s t r j v :=
  ⟨_, hw, rfl, storesOnly_stored s c r hij v⟩

section
variable (h : Ready s) (hc : CycleOk c s) (hs : Inv s)
include h hc hs

theorem exec_write_wram (hlo : 0xC000 ≤ a.toNat) (hhi : a.toNat < 0xFE00) (hopen : s.wramBlocked = false) :
    exec (.write a v c) s = .next (s.stored c .wram (wramIndex s.banks a) v) :=
  exec_write_stored h hc (busWrite_wram (s := s.begun c) (hs.table h.2.1) hlo hhi hopen)
    (wramIndex_has h.2.1 hs.banks hlo hhi)

theorem exec_write_sram (hlo : 0xA000 ≤ a.toNat) (hhi : a.toNat < 0xC000) (hopen : s.sramBlocked = false)
    (hclock : rtcEn s.banks.ramFlags = false) (hon : writeEn s.banks.ramFlags = true) (hram : s.geo.ramBanks ≠ 0) :
    exec (.write a v c) s = .next (s.stored c .sram (sramIndex s.banks a) v) :=
  exec_write_stored h hc (busWrite_sram (s := s.begun c) (hs.table h.2.1) hlo hhi hopen hclock hon hram)
    (sramIndex_has h.2.1 hs.banks hram hlo hhi)

theorem exec_write_vram (hlo : 0x8000 ≤ a.toNat) (hhi : a.toNat < 0xA000) (hsrc : s.banks.oamDmaSrc ≠ .vram)
    (hok : s.inputs.vramOk = true) :
    exec (.write a v c) s = .next (s.stored c .vram (vramIndex s.banks a) v) :=
  exec_write_stored h hc ((busWrite_vram (s := s.begun c) (hs.table h.2.1) hlo hhi hsrc).trans (if_pos hok))
    (vramIndex_has s.geo s.banks hlo hhi)

theorem exec_write_oam (hlo : 0xFE00 ≤ a.toNat) (hhi : a.toNat < 0xFEA0) (hsrc : s.banks.oamDmaSrc = .off)
    (hok : s.inputs.oamOk = true) : exec (.write a v c) s = .next (s.stored c .hi (hiIndex a) v) :=
  exec_write_stored h hc ((busWrite_oam (s := s.begun c) (hs.table h.2.1) hlo hhi hsrc).trans (if_pos hok))
    (hiIndex_has s.geo hlo)

theorem exec_write_hram (hlo : 0xFF80 ≤ a.toNat) (hhi : a.toNat < 0xFFFF) :
    exec (.write a v c) s = .next (s.stored c .hi (hiIndex a) v) :=
  exec_write_stored h hc (busWrite_hram (s := s.begun c) (hs.table h.2.1) hlo hhi) (hiIndex_has s.geo (by omega))

end

/-- Settles O23, by the byte each address of plain storage names. -/
theorem writeStores : Obligations.WriteStores := by
  intro s a v c h hc hs stores
  have hsel : s.banks.wramEff = max s.banks.wrambankSel.toNat 1 := rfl
  refine ⟨fun hlo hhi hopen => ?bank0, fun hlo hhi hopen => ?switchable, fun hlo hhi hopen => ?echo0,
    fun hlo hhi hopen => ?echo, fun hlo hhi hopen hclock hon hram => ?sram, fun hlo hhi hsrc hok => ?vram,
    fun hlo hhi hsrc hok => ?oam, fun hlo hhi => ?hram⟩
  case sram =>
    exact stores_of_exec (exec_write_sram h hc hs hlo hhi hopen hclock hon hram) (by rw [sramIndex]; omega)
  case vram => exact stores_of_exec (exec_write_vram h hc hs hlo hhi hsrc hok) (by rw [vramIndex]; omega)
  case oam => exact stores_of_exec (exec_write_oam h hc hs hlo hhi hsrc hok) (by rw [hiIndex]; omega)
  case hram => exact stores_of_exec (exec_write_hram h hc hs hlo hhi) (by rw [hiIndex]; omega)
  all_goals
    refine stores_of_exec (exec_write_wram h hc hs (by omega) (by omega) hopen) ?_
    rw [wramIndex, echoIndex, hsel]
    split_ifs <;> omega

/-! ## Writes that store nothing -/

/-- The write window of cartridge RAM: writes dropped while they are disabled or there is no RAM, the clock's control
while it is selected (20_memory.md R69). -/
theorem ramW_eq (g : Geometry) (b : Banks) : ramW g b =
    if writeEn b.ramFlags = false then .discard
    else if rtcEn b.ramFlags then .slow
    else if g.ramBanks = 0 then .discard
    else .win .sram (b.rambank.toNat * 0x2000 - 0xA000) := by
  cases hwrite : writeEn b.ramFlags <;> cases hclock : rtcEn b.ramFlags <;> simp [ramW, hwrite, hclock]

/-- Settles O24, by the handler of each range. -/
theorem writeStoresNothing : Obligations.WriteStoresNothing := by
  intro s a v c h hc hs emits drops
  have ht : (s.begun c).table = deriveTable s.params s.geo s.banks := hs.table h.2.1
  have hemits : busWrite a v c (s.begun c) = .ok ((s.begun c).emitCart a v c) → emits := exec_write h hc
  have hdrops : busWrite a v c (s.begun c) = .ok (s.begun c) → drops := exec_write h hc
  have hsram : 0xA000 ≤ a.toNat → a.toNat < 0xC000 → s.sramBlocked = false →
      deriveWAt s.params s.geo s.banks (nibble a) = _ := fun hlo hhi hopen =>
    (deriveWAt_sram hlo hhi hopen).trans (ramW_eq ..)
  refine ⟨fun ha => hemits ?cart, fun hlo hhi hopen hclock hon => hemits ?clock,
    fun hlo hhi hopen hoff => hdrops ?disabled, fun hlo hhi hopen hclock hram => hdrops ?absent,
    fun hlo hhi hsrc hok => hdrops ?vram, fun hlo hhi hsrc hok => hdrops ?oam, fun hlo hhi => hdrops ?unusable⟩
  case cart => exact (busWrite_low (s := s.begun c) ht (by omega)).trans (slowWrite_cart ha)
  case clock =>
    have hentry := (hsram hlo hhi hopen).trans (if_neg (by rw [writeEn, hon]; decide))
    exact (busWrite_of_slow (s := s.begun c) ht (hentry.trans (if_pos hclock))).trans
      (slowWrite_sram (s := s.begun c) hlo hhi hopen)
  case disabled =>
    exact busWrite_of_discard (s := s.begun c) ht ((hsram hlo hhi hopen).trans (if_pos hoff))
  case absent =>
    have hentry : deriveWAt s.params s.geo s.banks (nibble a) = .discard := by
      rw [hsram hlo hhi hopen, rtcEn, hclock, if_neg Bool.false_ne_true, if_pos hram, ite_self]
    exact busWrite_of_discard (s := s.begun c) ht hentry
  case vram =>
    have hdenied : ¬s.inputs.vramOk = true := by rw [hok]; decide
    exact (busWrite_vram (s := s.begun c) ht hlo hhi hsrc).trans (if_neg hdenied)
  case oam =>
    have hdenied : ¬s.inputs.oamOk = true := by rw [hok]; decide
    exact (busWrite_oam (s := s.begun c) ht hlo hhi hsrc).trans (if_neg hdenied)
  case unusable => exact (busWrite_high (s := s.begun c) ht (by omega)).trans (slowWrite_unusable hlo hhi)

/-! ## Reading back -/

/-- A READ that looks at the byte a WRITE stored answers the byte written. -/
theorem read_answers_stored {t : State} {b : Addr} {c' : Cycle} {r : Region} {i : Int} (h : Ready s)
    (hexec : exec (.write a v c) s = .next t) (hc' : CycleOk c' t)
    (hw : exec (.write a v c) s = .next (s.stored c r i v)) (hi : r.Has s.geo i)
    (hr : busRead b c' ((s.stored c r i v).begun c') =
      do return (← ((s.stored c r i v).begun c').readArena r i, (s.stored c r i v).begun c')) :
    ∃ u, exec (.read b c') t = .next u ∧ u.outputs.rsp = .byte v := by
  obtain rfl := Host.Outcome.next.inj (hw.symm.trans hexec)
  have hbyte : ((s.stored c r i v).begun c').readArena r i = .ok v :=
    (State.readArena_ok (s := (s.stored c r i v).begun c') hi.1 hi.2).trans
      (congrArg Except.ok (Arena.byte_store_same _ _ _ _))
  rw [hbyte] at hr
  exact ⟨_, exec_read h hc' hr, rfl⟩

/-- Settles O26: a write and a read of plain storage look at the byte the address names, and an echo names the same. -/
theorem readAfterWrite : Obligations.ReadAfterWrite := by
  intro s t a b v c c' h hc hs hoff hexec hc' hcase
  have ht : s.table = deriveTable s.params s.geo s.banks := hs.table h.2.1
  obtain ⟨-, hsram, hwram⟩ := not_blocked_of_off hoff
  have hsrc : s.banks.oamDmaSrc ≠ .vram := by rw [hoff]; decide
  have hwramCase : 0xC000 ≤ a.toNat → a.toNat < 0xFE00 → 0xC000 ≤ b.toNat → b.toNat < 0xFE00 →
      wramIndex s.banks a = wramIndex s.banks b → ∃ u, exec (.read b c') t = .next u ∧ u.outputs.rsp = .byte v :=
    fun hlo hhi hlo' hhi' hsame => by
      have hw := exec_write_wram (v := v) h hc hs hlo hhi hwram
      rw [hsame] at hw
      exact read_answers_stored h hexec hc' hw (wramIndex_has h.2.1 hs.banks hlo' hhi')
        (busRead_wram ht hlo' hhi' hwram)
  obtain ⟨hlo, hhi, rfl⟩ | ⟨hlo, hhi, hb⟩ | ⟨hlo, hhi, hb⟩ | ⟨hlo, hhi, rfl⟩ | ⟨hlo, hhi, hok, rfl⟩ |
    ⟨hlo, hhi, hok, rfl⟩ | ⟨hlo, hhi, hflags, hram, rfl⟩ := hcase
  · exact hwramCase hlo hhi hlo hhi rfl
  · exact hwramCase hlo (by omega) (by omega) (by omega) (wramIndex_echo _ hlo hhi hb).symm
  · exact hwramCase (by omega) hhi (by omega) (by omega) (wramIndex_echo _ (by omega) (by omega) hb.symm)
  · exact read_answers_stored h hexec hc' (exec_write_hram h hc hs hlo hhi) (hiIndex_has s.geo (by omega))
      (busRead_hram ht hlo hhi)
  · exact read_answers_stored h hexec hc' (exec_write_vram h hc hs hlo hhi hsrc hok)
      (vramIndex_has s.geo s.banks hlo hhi) (busRead_vram_open ht hlo hhi hsrc hok)
  · exact read_answers_stored h hexec hc' (exec_write_oam h hc hs hlo hhi hoff hok) (hiIndex_has s.geo hlo)
      (busRead_oam_open ht hlo hhi hoff hok)
  · have hclock : rtcEn s.banks.ramFlags = false := by rw [hflags]; decide
    have hread : readEn s.banks.ramFlags = true := by rw [hflags]; decide
    have hwrite : writeEn s.banks.ramFlags = true := by rw [hflags]; decide
    exact read_answers_stored h hexec hc' (exec_write_sram h hc hs hlo hhi hsram hclock hwrite hram)
      (sramIndex_has h.2.1 hs.banks hram hlo hhi) (busRead_sram ht hlo hhi hsram hclock hread hram)

end

end Sys2Proof.Machine
end

section
/-! PROOFS. The bank commands issued again (40_bank_window_ops.md R146). -/

namespace Sys2Proof.Machine

section
variable {i : Instr} {s t : State}

/-- A command that answered without a fault ran its body. -/
theorem body_of_exec (h : exec i s = .next t) (hf : t.faulted = none) :
    s.faulted = none ∧ (gateOf i).passes s = true ∧ bodyOf i s.clearOutputs = .ok t := by
  obtain ⟨hfault, rfl⟩ | ⟨-, id, info, rfl⟩ | hbody := exec_next h
  · exact absurd hf hfault
  · exact absurd hf (by simp)
  · exact hbody

/-- The lifecycle flags alone decide the lifecycle checks. -/
theorem passes_of_keeps (g : Gate) (h : Keeps s t) : g.passes t = g.passes s := by
  cases g <;> simp only [Gate.passes, h.loaded, h.running]

/-- A command that replaces the banks by `f` of them and derives the table, its check looking at the geometry alone, is
idempotent where `f` is. -/
theorem exec_select_again {f : Banks → Banks} {bad : Geometry → Prop} [DecidablePred bad] {e : Abort}
    (hidem : ∀ b, f (f b) = f b)
    (hbody : ∀ u : State, bodyOf i u =
      if bad u.geo then .error e else .ok (State.derive { u with banks := f u.banks }))
    (h : exec i s = .next t) (hf : t.faulted = none) : exec i t = .next t := by
  obtain ⟨-, hg, hb⟩ := body_of_exec h hf
  rw [hbody] at hb
  split_ifs at hb with hgood
  obtain rfl := Except.ok.inj hb
  have hagain := (hbody (State.derive { s with banks := f s.banks }).clearOutputs).trans (if_neg hgood)
  have hbanks : f (f s.banks) = f s.banks := hidem s.banks
  rw [exec_eq]
  refine runCommand_ok hf ((passes_of_keeps _ ⟨rfl, rfl, rfl, rfl, rfl, rfl, rfl⟩).trans hg) (hagain.trans ?_)
  simp only [State.derive, State.clearOutputs, hbanks]

theorem exec_bankMutator_again {w : BitVec 16} {b : BitVec 8} {f code : BitVec 3}
    (hi : i ∈ [.setRombank0 w, .setRombank w, .setRambank b f, .setWrambank w, .setVrambank w, .setOamDmaSrc code])
    (h : exec i s = .next t) (hf : t.faulted = none) : exec i t = .next t := by
  simp only [List.mem_cons, List.not_mem_nil, or_false] at hi
  obtain rfl | rfl | rfl | rfl | rfl | rfl := hi
  · exact exec_select_again (f := fun k => { k with rombank0 := w }) (bad := fun g => g.romBanks ≤ w)
      (fun _ => rfl) (fun _ => rfl) h hf
  · exact exec_select_again (f := fun k => { k with rombank := w }) (bad := fun g => g.romBanks ≤ w)
      (fun _ => rfl) (fun _ => rfl) h hf
  · exact exec_select_again (f := fun k => { k with rambank := b, ramFlags := f })
      (bad := fun g => g.ramBanks ≠ 0 ∧ g.ramBanks ≤ b) (fun _ => rfl) (fun _ => rfl) h hf
  · exact exec_select_again (f := fun k => { k with wrambankSel := w.extractLsb' 0 3 })
      (bad := fun g => g.wramBanks.toNat ≤ wramBankOf (w.extractLsb' 0 3)) (fun _ => rfl) (fun _ => rfl) h hf
  · exact exec_select_again (f := fun k => { k with vrambank := w.extractLsb' 0 1 })
      (bad := fun _ => 1 < w.toNat) (fun _ => rfl) (fun _ => rfl) h hf
  · obtain ⟨-, -, hb⟩ := body_of_exec h hf
    cases hd : DmaSrc.ofCode code.toNat with
    | none => simp [bodyOf, hd] at hb
    | some d =>
      have hbody : ∀ u, bodyOf (.setOamDmaSrc code) u = .ok (u.setDmaSrc d) := fun u => by simp only [bodyOf, hd]
      exact exec_select_again (f := fun k => { k with oamDmaSrc := d }) (bad := fun _ => False)
        (e := .raise .illegalCmd .none) (fun _ => rfl) hbody h hf

/-- A RESET whose allocation succeeds, issued again, installs the same cartridge and draws the DMA register again. -/
theorem exec_reset_again {rom : BitVec 16} {ram : BitVec 8} {wram : BitVec 4} {cgb : Bool}
    (ha : s.inputs.alloc = true) (h : exec (.reset rom ram wram cgb) s = .next t) (hf : t.faulted = none) :
    exec (.reset rom ram wram cgb) t = .next { t with
      draws := t.draws + 1, dma := { t.dma with dmaReg := Config.freeByte t.draws } } := by
  obtain ⟨hsf, -, -⟩ := body_of_exec h hf
  cases hg : geometryLegal rom wram with
  | false =>
    obtain rfl := Host.Outcome.next.inj ((exec_reset_of_illegal hsf hg).symm.trans h)
    exact absurd hf (by simp)
  | true =>
    obtain rfl := Host.Outcome.next.inj ((exec_reset_of_alloc hsf hg ha).symm.trans h)
    exact exec_reset_of_alloc hf hg ha

end

/-- Settles O46: a mutator replaces banks by the same banks, and RESET installs the same cartridge. -/
theorem bankCommandsIdempotent : Obligations.BankCommandsIdempotent :=
  ⟨fun _ _ _ _ _ _ _ hi h hf => exec_bankMutator_again hi h hf,
    fun _ _ _ _ _ _ ha h hf => exec_reset_again ha h hf⟩

end Sys2Proof.Machine
end

section
/-! PROOFS. LOAD_STATE of a blob it accepts (44_save_state.md R281, R286): every field and every byte it restores. -/

namespace Sys2Proof.Machine

/-! ## Fields narrower than their byte -/

/-- The reserved high bits of a byte are clear exactly where its value fits the field. -/
theorem highBits_eq_zero_iff {n m : Nat} (hn : n + m = 8) (x : Byte) : x.extractLsb' n m = 0#m ↔ x.toNat < 2 ^ n := by
  have hlt : x.toNat / 2 ^ n < 2 ^ m := Nat.div_lt_of_lt_mul (by rw [← pow_add, hn]; exact x.isLt)
  rw [← BitVec.toNat_inj, BitVec.extractLsb'_toNat, Nat.shiftRight_eq_div_pow, Nat.mod_eq_of_lt hlt,
    BitVec.toNat_ofNat, Nat.zero_mod, Nat.div_eq_zero_iff_lt (Nat.two_pow_pos n)]

/-- A field of a byte whose value fits it is that value. -/
theorem toNat_extractLsb'_byte {n : Nat} {x : Byte} (hx : x.toNat < 2 ^ n) : (x.extractLsb' 0 n).toNat = x.toNat := by
  rw [BitVec.extractLsb'_toNat, Nat.shiftRight_zero, Nat.mod_eq_of_lt hx]

/-- A byte whose value fits a field is the field with zeros above it. -/
theorem setWidth_extractLsb'_byte {n : Nat} {x : Byte} (hx : x.toNat < 2 ^ n) :
    (x.extractLsb' 0 n).setWidth 8 = x := by
  apply BitVec.eq_of_toNat_eq
  rw [BitVec.toNat_setWidth, toNat_extractLsb'_byte hx, Nat.mod_eq_of_lt x.isLt]

/-- A source code of 30_encoding.md R103 and the source it names. -/
theorem ofCode_mem {n : Nat} (h : n ≤ 5) : (n, (DmaSrc.ofCode n).getD .off) ∈
    [(0, DmaSrc.rom), (1, .sram), (2, .vram), (3, .wram), (4, .invalid), (5, .off)] := by
  interval_cases n <;> decide

/-! ## The regions of a blob -/

section
variable {s : State}

/-- A byte of a region restored from a blob is the blob's byte at the region's offset. -/
theorem read_blobRegion {r : Region} (hfill : r.fill = 0) {g : Geometry} {i : Nat} (hi : i < r.length g) (off : Nat)
    (buf : List Byte) : Memory.read r.fill (blobRegion r g off buf) i = blobByte buf (off + i) := by
  rw [blobRegion, Memory.read_ofBytes, hfill, blobByte, List.getD, List.getD, List.getElem?_take_of_lt hi,
    List.getElem?_drop]

/-- The bytes of the four regions a blob stores (R281). -/
theorem byteAt_restored (s : State) :
    (∀ i, i < 0x200 → s.restored.byteAt .hi i = blobByte s.inputs.buf (0x40 + i)) ∧
    (∀ i, i < 0x4000 → s.restored.byteAt .vram i = blobByte s.inputs.buf (0x240 + i)) ∧
    (∀ i, i < s.geo.wramBanks.toNat * 0x1000 → s.restored.byteAt .wram i = blobByte s.inputs.buf (0x4240 + i)) ∧
    (∀ i, i < s.geo.ramBanks.toNat * 0x2000 → s.restored.byteAt .sram i =
      blobByte s.inputs.buf (0x4240 + s.geo.wramBanks.toNat * 0x1000 + i)) :=
  ⟨fun _ h => read_blobRegion (r := .hi) (g := s.geo) rfl h _ _,
    fun _ h => read_blobRegion (r := .vram) (g := s.geo) rfl h _ _,
    fun _ h => read_blobRegion (r := .wram) (g := s.geo) rfl h _ _,
    fun _ h => read_blobRegion (r := .sram) (g := s.geo) rfl h _ _⟩

/-- A restored CPU is halted where its flag says so and no enabled request is pending (43_irq_halt.md R266). -/
theorem halted_restored (s : State) : s.restored.irq.halted = ((blobByte s.inputs.buf 0x04).getLsbD 2 &&
    (blobByte s.inputs.buf 0x05 &&& blobByte s.inputs.buf 0x06).extractLsb' 0 5 == 0#5) := by
  rw [BitVec.extractLsb'_and]
  exact wakeIrq_halted _

theorem exec_loadState_of_valid (hf : s.faulted = none) (hl : s.loaded = true)
    (hlen : s.inputs.buf.length = stateSize s.geo) (hv : BlobValid s.params s.geo s.inputs.buf) :
    exec .loadState s = .next (s.clearOutputs.restored.respond (.bit true)) :=
  exec_loaded hf hl (by decide) (loadBody_of_valid (s := s.clearOutputs) hlen hv)

end

/-- Settles O59: the hypotheses are the conditions of R281, and each field is read where the layout puts it. -/
theorem loadStateRestores : Obligations.LoadStateRestores := by
  intro s hf hl b hlen hcc hflags hIF hrom0 hrom hram hramFlags hwram hvram hsrc hpos hblit htac hserial
  rw [highBits_eq_zero_iff (by decide)] at hflags hIF hramFlags hvram htac
  rw [highBits_eq_zero_iff (by decide)] at hwram
  obtain ⟨hsel, hbank⟩ := hwram
  have hvalid : BlobValid s.params s.geo b := {
    counter := hcc
    flags := hflags
    requests := hIF
    rombank0 := hrom0
    rombank := hrom
    rambank := (Nat.eq_zero_or_pos s.geo.ramBanks.toNat).imp (fun h => BitVec.eq_of_toNat_eq h) hram
    ramFlags := hramFlags
    wrambankSel := ⟨hsel, by rw [wramBankOf, toNat_extractLsb'_byte hsel]; exact hbank⟩
    vrambank := hvram
    oamDmaSrc := hsrc
    dmaPos := hpos
    blit := hblit
    tac := htac
    serialBits := hserial }
  have hserial4 : (blobByte b 0x3D).toNat < 2 ^ 4 := by omega
  have hIF5 := setWidth_extractLsb'_byte hIF
  refine ⟨_, exec_loadState_of_valid hf hl hlen hvalid,
    -- the answer, the lifecycle flags, what stays, the table, and the fields before IF
    rfl, rfl, hl, hf, rfl, rfl, rfl, rfl, rfl, rfl, rfl, rfl, rfl,
    -- the interrupt state, through the wake rule
    (congrArg (BitVec.setWidth 8) (wakeIrq_IF _)).trans hIF5, wakeIrq_IE _, wakeIrq_ime _, halted_restored s,
    wakeIrq_eiCycle _,
    -- LYC and the banks
    rfl, rfl, rfl, rfl, rfl, setWidth_extractLsb'_byte hramFlags, setWidth_extractLsb'_byte hsel,
    setWidth_extractLsb'_byte hvram, ofCode_mem hsrc,
    -- OAM DMA, the trigger times, the timer
    rfl, rfl, rfl, rfl, rfl, rfl, rfl, rfl, rfl, rfl, rfl, rfl, setWidth_extractLsb'_byte htac,
    -- the serial unit, and the Backing Store
    rfl, rfl, setWidth_extractLsb'_byte hserial4, rfl, rfl, byteAt_restored s.clearOutputs⟩

end Sys2Proof.Machine
end

section
/-! PROOFS. A dispatch moves its unit's trigger time on and leaves those of the others (42_scheduler.md R201, R205), so
the run loop of 70_reset_and_hazards.md R342 comes to an end. -/

namespace Sys2Proof.Machine

/-! ## The interval a unit is armed by -/

/-- An interval that moves a trigger time on from every cycle below the rebase limit, without a wrap (42_scheduler.md
R200). -/
def IsInterval (d : Nat) : Prop := 0 < d ∧ d ≤ 0x2000000

section
variable {p : Params} (hp : Params.legal p = true)
include hp

theorem lt_add_interval {c : Cycle} {d : Nat} (hc : c.toNat < p.rebaseLimit) (hd : IsInterval d) :
    c < c + BitVec.ofNat 32 d := by
  simp only [Params.legal, Bool.and_eq_true, decide_eq_true_eq] at hp
  obtain ⟨hpos, hmax⟩ := hd
  bv_omega

theorem isInterval_frame (ds : Bool) : IsInterval (dsShift ds p.frameCycles) := by
  simp only [Params.legal, Bool.and_eq_true, decide_eq_true_eq] at hp
  cases ds <;> simp only [IsInterval, dsShift_false, dsShift_true] <;> omega

theorem isInterval_serialPeriod {s : State} (hs : s.params = p) : IsInterval (serialPeriod s) := by
  simp only [Params.legal, Bool.and_eq_true, decide_eq_true_eq] at hp
  rw [serialPeriod, hs, IsInterval]
  split <;> omega

theorem isInterval_dmaByte : IsInterval p.dmaByteCycles := by
  simp only [Params.legal, Bool.and_eq_true, decide_eq_true_eq] at hp
  rw [IsInterval]
  omega

theorem timaPeriod_bounds (tac : BitVec 3) : 0 < timaPeriod p tac ∧ timaPeriod p tac ≤ 0x10000 := by
  simp only [Params.legal, Bool.and_eq_true, decide_eq_true_eq] at hp
  unfold timaPeriod
  split <;> omega

/-- TIMA overflows again after at most 256 increments (R227). -/
theorem isInterval_tima (tma : Byte) (tac : BitVec 3) : IsInterval ((256 - tma.toNat) * timaPeriod p tac) := by
  obtain ⟨hpos, hmax⟩ := timaPeriod_bounds hp tac
  have htma := tma.isLt
  refine ⟨Nat.mul_pos (by omega) hpos, ?_⟩
  calc (256 - tma.toNat) * timaPeriod p tac ≤ 256 * 0x10000 := Nat.mul_le_mul (by omega) hmax
    _ ≤ 0x2000000 := by decide

end

/-! ## One dispatch -/

/-- What a dispatch of unit `u` at time `c` does to the counter and the trigger times. -/
structure MovesOn (u : SchedUnit) (c : Cycle) (s t : State) : Prop where
  counter : t.cc = s.cc
  own : t.time.get u = disabled ∨ c < t.time.get u
  others : ∀ u', u ≠ u' → t.time.get u' = s.time.get u'

section
variable {s t : State} {c : Cycle}

theorem movesOn_setTime {x : State} (u : SchedUnit) {v : Cycle} (hcc : x.cc = s.cc) (htime : x.time = s.time)
    (hv : v = disabled ∨ c < v) : MovesOn u c s (x.setTime u v) where
  counter := (State.setTime_cc u v x).trans hcc
  own := by rw [Times.get_setTime_same]; exact hv
  others u' hne := by rw [Times.get_setTime_other v x hne, htime]

theorem serialBitsLeft_keeps (s : State) : (serialBitsLeft s).2.cc = s.cc ∧ (serialBitsLeft s).2.time = s.time ∧
    (serialBitsLeft s).2.params = s.params := by
  rw [serialBitsLeft_state]
  exact ⟨rfl, rfl, rfl⟩

section
variable (hp : Params.legal s.params = true) (hc : c.toNat < s.params.rebaseLimit)
include hp hc

theorem movesOn_serialDispatch : MovesOn .serial c s (serialDispatch c s) := by
  obtain ⟨hcc, htime, hparams⟩ :=
    serialBitsLeft_keeps { s with serial := { s.serial with sb := (s.serial.sb <<< 1) ||| 1 } }
  unfold serialDispatch
  dsimp only
  split
  · exact movesOn_setTime .serial hcc htime (.inl rfl)
  · refine movesOn_setTime .serial hcc htime (.inr (lt_add_interval hp hc (isInterval_serialPeriod hp ?_)))
    exact hparams

theorem movesOn_dmaDispatch (h : dmaDispatch c s = .ok t) : MovesOn .oamDma c s t := by
  unfold dmaDispatch at h
  obtain ⟨⟨v, x⟩, hread, h⟩ := Except.bind_ok_inv h
  obtain ⟨y, hstore, h⟩ := Except.bind_ok_inv h
  obtain ⟨hcc, htime, hparams⟩ : y.cc = s.cc ∧ y.time = s.time ∧ y.params = s.params := by
    obtain ⟨-, -, rfl⟩ := State.writeArena_inv hstore
    rw [dmaSourceByte_state hread]
    split <;> exact ⟨rfl, rfl, rfl⟩
  dsimp only at h
  split at h
  · cases h
    exact movesOn_setTime .oamDma hcc htime (.inl rfl)
  · cases h
    refine movesOn_setTime .oamDma hcc htime (.inr ?_)
    rw [hparams]
    exact lt_add_interval hp hc (isInterval_dmaByte hp)

/-- Every dispatch at a legal cycle leaves its unit disarmed, or armed after the time it ran at (R205). -/
theorem movesOn_dispatch {u : SchedUnit} (h : dispatch u c s = .ok t) : MovesOn u c s t := by
  have hframe := lt_add_interval hp hc (isInterval_frame hp s.ds)
  cases u with
  | blit => cases h; exact movesOn_setTime .blit rfl rfl (.inr hframe)
  | serial => cases h; exact movesOn_serialDispatch hp hc
  | oamDma => exact movesOn_dmaDispatch hp hc h
  | tima => cases h; exact movesOn_setTime .tima rfl rfl (.inr (lt_add_interval hp hc (isInterval_tima hp _ _)))
  | lyc =>
    cases h
    unfold lycDispatch
    split
    · exact movesOn_setTime .lyc rfl rfl (.inr hframe)
    · exact movesOn_setTime .lyc rfl rfl (.inr hframe)

end

theorem dispatch_completes (hl : s.loaded = true) (ht : TableDerived s) (hb : BanksLegal s) (u : SchedUnit)
    (c : Cycle) : Completes (dispatch u c s) := by
  cases u with
  | oamDma => exact dmaDispatch_completes hl ht hb c
  | blit | serial | tima | lyc => exact .ok _

/-! ## How much is overdue -/

/-- How far unit `u` is behind cycle `c`, and one more; 0 where it is not due. -/
def lag (c : Cycle) (x : Times) (u : SchedUnit) : Nat := c.toNat + 1 - (x.get u).toNat

/-- What all units together are behind: the measure that each dispatch of the run loop lowers. -/
def overdue (c : Cycle) (x : Times) : Nat :=
  lag c x .blit + lag c x .serial + lag c x .oamDma + lag c x .tima + lag c x .lyc

theorem overdue_lt_of_lag_lt {x y : Times} {u : SchedUnit} (hown : lag c y u < lag c x u)
    (hothers : ∀ u', u ≠ u' → lag c y u' = lag c x u') : overdue c y < overdue c x := by
  have hle : ∀ u', lag c y u' ≤ lag c x u' := fun u' => by
    by_cases h : u = u'
    · exact h ▸ hown.le
    · exact (hothers u' h).le
  have h1 := hle .blit
  have h2 := hle .serial
  have h3 := hle .oamDma
  have h4 := hle .tima
  have h5 := hle .lyc
  unfold overdue
  cases u <;> omega

/-- A dispatch of the next unit lowers what is overdue. -/
theorem MovesOn.overdue_lt (h : MovesOn (nextUnit s.time) (minTime s.time) s t) (hdue : minTime s.time ≤ c)
    (hc : c < disabled) : overdue c t.time < overdue c s.time := by
  have hown := h.own
  refine overdue_lt_of_lag_lt (u := nextUnit s.time) ?_ fun u' hne => by rw [lag, h.others u' hne, lag]
  simp only [lag, get_nextUnit]
  bv_omega

/-! ## The run loop -/

/-- What every round of the run loop at cycle `c` keeps. -/
structure InLoop (c : Cycle) (s : State) : Prop where
  params : Params.legal s.params = true
  ready : Ready s
  cycle : CycleOk c s
  inv : Inv s

/-- A well-formed command keeps the invariants, as the step that runs it does. -/
theorem exec_keeps_inv {i : Instr} (hw : i.wellFormed = true) (hp : Params.legal s.params = true) (hs : Inv s)
    (h : exec i s = .next t) : Inv t :=
  (invariantsKept (s.withFetchWord 64 (encode i).toNat) t hp
    ⟨hs.table, hs.memory, hs.banks, hs.running, hs.halt, hs.blit, hs.counter, hs.serial, hs.sentinel⟩
    ((step_withFetchWord_encode hw 64 s).trans h)).1

/-- An EVENT that keeps the lifecycle and leaves the counter at `c` stays in the loop. -/
theorem InLoop.next (h : InLoop c s) (hk : Keeps s t) (hcc : t.cc = c) (hexec : exec (.event c) s = .next t) :
    InLoop c t where
  params := by rw [hk.params]; exact h.params
  ready := by rw [Ready, hk.faulted, hk.loaded, hk.running]; exact h.ready
  cycle := by rw [CycleOk, hk.params, hcc]; exact ⟨BitVec.le_refl c, h.cycle.2⟩
  inv := exec_keeps_inv rfl h.params h.inv hexec

theorem InLoop.lt_disabled (h : InLoop c s) : c < disabled := by
  have hp := h.params
  have hc := h.cycle.2
  simp only [Params.legal, Bool.and_eq_true, decide_eq_true_eq] at hp
  bv_omega

theorem keeps_respond (r : Response) (s : State) : Keeps s (s.respond r) := ⟨rfl, rfl, rfl, rfl, rfl, rfl, rfl⟩

/-- One EVENT of the loop answers the next event time, and where more is due after it, less is overdue than before. -/
theorem InLoop.round (h : InLoop c s) : ∃ t, exec (.event c) s = .next t ∧ t.outputs.rsp = .word (minTime t.time) ∧
    t.cc = c ∧ InLoop c t ∧ (minTime t.time ≤ c → overdue c t.time < overdue c s.time) := by
  by_cases hdue : minTime s.time ≤ c
  · obtain ⟨x, hx⟩ := dispatch_completes (s := s.begun c) h.ready.2.1 h.inv.table h.inv.banks (nextUnit s.time)
      (minTime s.time)
    have hexec := exec_event_due h.ready h.cycle hdue hx
    have hmoves := movesOn_dispatch (s := s.begun c) h.params (Nat.lt_of_le_of_lt hdue h.cycle.2) hx
    have hbegun : Keeps s (s.begun c) := ⟨rfl, rfl, rfl, rfl, rfl, rfl, rfl⟩
    have hkeeps := hbegun.trans ((keeps_dispatch hx).trans (keeps_respond (.word (minTime x.time)) x))
    exact ⟨_, hexec, rfl, hmoves.counter, h.next hkeeps hmoves.counter hexec,
      fun _ => MovesOn.overdue_lt (s := s.begun c) (t := x) hmoves hdue h.lt_disabled⟩
  · have hexec := exec_event_idle h.ready h.cycle (BitVec.not_le.mp hdue)
    exact ⟨_, hexec, rfl, rfl, h.next ⟨rfl, rfl, rfl, rfl, rfl, rfl, rfl⟩ rfl hexec, fun hle => absurd hle hdue⟩

theorem runTo_succ {n : Nat} {w : Cycle} (h : exec (.event c) s = .next t) (hrsp : t.outputs.rsp = .word w) :
    runTo (n + 1) c s = if w ≤ c then runTo n c t else .next t := by
  simp only [runTo, h, hrsp]

/-- More rounds than what is overdue suffice to catch up. -/
theorem InLoop.catchesUp {n : Nat} (h : InLoop c s) (hn : overdue c s.time < n) :
    ∃ t, runTo n c s = .next t ∧ Ready t ∧ t.cc = c ∧ c < minTime t.time ∧ t.outputs.rsp = .word (minTime t.time) := by
  induction n generalizing s with
  | zero => exact absurd hn (Nat.not_lt_zero _)
  | succ n ih =>
    obtain ⟨t, hexec, hrsp, hcc, ht, hless⟩ := h.round
    rw [runTo_succ hexec hrsp]
    split
    · next hmore => exact ih ht (by have := hless hmore; omega)
    · next hdone => exact ⟨t, rfl, ht.ready, hcc, BitVec.not_le.mp hdone, hrsp⟩

end

/-- Settles O40: each dispatch of the loop lowers what is overdue. -/
theorem runLoopCatchesUp : Obligations.RunLoopCatchesUp := fun _ _ hp hready hc hs =>
  ⟨_, InLoop.catchesUp ⟨hp, hready, hc, hs⟩ (Nat.lt_succ_self _)⟩

end Sys2Proof.Machine
end

section
/-! PROOFS. The packet a command decodes from is its own packet (30_encoding.md R100 to R105): one lemma per format,
then the opcode map row by row. -/

namespace Sys2Proof

/-! ## A field from its parts -/

/-- A field whose high bits are reserved and zero is its low bits with zeros above them. -/
theorem zero_append_extractLsb' {m n : Nat} {x : BitVec (m + n)} (h : x.extractLsb' n m = 0#m) :
    0#m ++ x.extractLsb' 0 n = x := by
  rw [← h, BitVec.extractLsb'_append_extractLsb'_eq_extractLsb' (by omega)]
  simp

theorem bit1_getLsbD {w : Nat} (x : BitVec w) (k : Nat) : bit1 (x.getLsbD k) = x.extractLsb' k 1 := by
  apply BitVec.eq_of_getLsbD_eq
  intro i hi
  obtain rfl : i = 0 := by omega
  simp [bit1]

/-- A field of A that only its low byte uses. -/
theorem zero_append_lowA {a : BitVec 16} (h : highA a = 0) : 0#8 ++ lowA a = a := by
  rw [← highA_lowA a, h, lowA_append]
  rfl

/-- The C field of RESET from its parts (R102, format RST). -/
theorem rst_append {c : BitVec 32} (hhigh : c.extractLsb' 9 23 = 0#23) (hmid : c.extractLsb' 4 4 = 0#4) :
    0#23 ++ bit1 (c.getLsbD 8) ++ 0#4 ++ c.extractLsb' 0 4 = c := by
  have h8 : (c.extractLsb' 9 23 ++ c.extractLsb' 8 1 : BitVec 24) = c.extractLsb' 8 24 :=
    BitVec.extractLsb'_append_extractLsb'_eq_extractLsb' rfl
  have h4 : (c.extractLsb' 8 24 ++ c.extractLsb' 4 4 : BitVec 28) = c.extractLsb' 4 28 :=
    BitVec.extractLsb'_append_extractLsb'_eq_extractLsb' rfl
  have h0 : (c.extractLsb' 4 28 ++ c.extractLsb' 0 4 : BitVec 32) = c.extractLsb' 0 32 :=
    BitVec.extractLsb'_append_extractLsb'_eq_extractLsb' rfl
  rw [bit1_getLsbD, ← hhigh, ← hmid, h8, h4, h0, BitVec.extractLsb'_eq_self]

/-! ## What a format decodes encodes again -/

/-- What the fields decode to, if anything, is well formed and encodes to them. -/
def EncodesBack (op : BitVec 8) (a : BitVec 16) (b : BitVec 8) (c : BitVec 32) (x : Except DecodeError Instr) : Prop :=
  ∀ i, x = .ok i → i.wellFormed = true ∧ encode i = packFields op a b c

section
variable {op : BitVec 8} {a : BitVec 16} {b : BitVec 8} {c : BitVec 32} {i : Instr}

theorem EncodesBack.ok (hw : i.wellFormed = true) (he : encode i = packFields op a b c) :
    EncodesBack op a b c (.ok i) := by
  rintro j ⟨⟩
  exact ⟨hw, he⟩

theorem EncodesBack.error (e : DecodeError) : EncodesBack op a b c (.error e) := by
  rintro j ⟨⟩

/-- A command is accepted only where its reserved bits are zero (R101). -/
theorem EncodesBack.acceptIf {r : Bool} (hw : i.wellFormed = true) (he : r = true → encode i = packFields op a b c) :
    EncodesBack op a b c (acceptIf r i) := by
  unfold Sys2Proof.acceptIf
  split
  · next hr => exact .ok hw (he hr)
  · exact .error _

theorem EncodesBack.formatN (hw : i.wellFormed = true) (he : encode i = packFields op 0 0 0) :
    EncodesBack op a b c (decodeN a b c i) := by
  refine .acceptIf hw fun hr => ?_
  simp only [Bool.and_eq_true, beq_iff_eq] at hr
  obtain ⟨⟨rfl, rfl⟩, rfl⟩ := hr
  exact he

theorem EncodesBack.formatBK (hw : i.wellFormed = true) (he : encode i = packFields op a 0 0) :
    EncodesBack op a b c (decodeBK b c i) := by
  refine .acceptIf hw fun hr => ?_
  simp only [Bool.and_eq_true, beq_iff_eq] at hr
  obtain ⟨rfl, rfl⟩ := hr
  exact he

theorem EncodesBack.formatCY (hw : i.wellFormed = true) (he : encode i = packFields op 0 0 c) :
    EncodesBack op a b c (decodeCY a b i) := by
  refine .acceptIf hw fun hr => ?_
  simp only [Bool.and_eq_true, beq_iff_eq] at hr
  obtain ⟨rfl, rfl⟩ := hr
  exact he

theorem EncodesBack.formatRST : EncodesBack 0x01#8 a b c (decodeRST a b c) := by
  refine .acceptIf rfl fun hr => ?_
  simp only [Bool.and_eq_true, beq_iff_eq] at hr
  obtain ⟨hhigh, hmid⟩ := hr
  rw [encode, rst_append hhigh hmid]

theorem EncodesBack.formatRB : EncodesBack 0x04#8 a b c (decodeRB a b c) := by
  refine .acceptIf rfl fun hr => ?_
  simp only [Bool.and_eq_true, beq_iff_eq] at hr
  obtain ⟨⟨ha, hb⟩, rfl⟩ := hr
  rw [encode, zero_append_lowA ha, zero_append_extractLsb' (m := 5) (n := 3) hb]

theorem EncodesBack.formatSRC : EncodesBack 0x07#8 a b c (decodeSRC a b c) := by
  unfold decodeSRC
  split
  · next hr =>
    simp only [Bool.and_eq_true, beq_iff_eq] at hr
    obtain ⟨⟨rfl, hb⟩, rfl⟩ := hr
    split
    · next hcode =>
      exact .ok (decide_eq_true hcode) (by rw [encode, zero_append_extractLsb' (m := 5) (n := 3) hb])
    · exact .error _
  · exact .error _

theorem EncodesBack.formatM_read : EncodesBack 0x10#8 a b c (Sys2Proof.acceptIf (b == 0) (.read a c)) := by
  refine .acceptIf rfl fun hr => ?_
  obtain rfl := eq_of_beq hr
  rfl

theorem EncodesBack.formatF_ffRead :
    EncodesBack 0x12#8 a b c (Sys2Proof.acceptIf (highA a == 0 && b == 0) (.ffRead (lowA a) c)) := by
  refine .acceptIf rfl fun hr => ?_
  simp only [Bool.and_eq_true, beq_iff_eq] at hr
  obtain ⟨ha, rfl⟩ := hr
  rw [encode, zero_append_lowA ha]

theorem EncodesBack.formatF_ffWrite :
    EncodesBack 0x13#8 a b c (Sys2Proof.acceptIf (highA a == 0) (.ffWrite (lowA a) b c)) :=
  .acceptIf rfl fun hr => by rw [encode, zero_append_lowA (eq_of_beq hr)]

theorem EncodesBack.formatS : EncodesBack 0x23#8 a b c (decodeS a b c) := by
  refine .acceptIf rfl fun hr => ?_
  simp only [Bool.and_eq_true, beq_iff_eq] at hr
  obtain ⟨rfl, hb⟩ := hr
  rw [encode, bit1_getLsbD, zero_append_extractLsb' (m := 7) (n := 1) hb]

theorem EncodesBack.formatL : EncodesBack 0x25#8 a b c (decodeL a b c) := by
  refine .acceptIf rfl fun hr => ?_
  simp only [Bool.and_eq_true, beq_iff_eq] at hr
  obtain ⟨ha, hb⟩ := hr
  rw [encode, zero_append_lowA ha, bit1_getLsbD, zero_append_extractLsb' (m := 7) (n := 1) hb]

theorem EncodesBack.formatI : EncodesBack 0x35#8 a b c (decodeI a b c) := by
  refine .acceptIf rfl fun hr => ?_
  simp only [Bool.and_eq_true, beq_iff_eq] at hr
  obtain ⟨rfl, hb⟩ := hr
  rw [encode, zero_append_extractLsb' (m := 3) (n := 5) hb]

/-! ## The opcode map -/

/-- A row of the opcode map (R104), ahead of the rows after it. -/
theorem EncodesBack.row {k : BitVec 8} {x y : Except DecodeError Instr} (hx : EncodesBack k a b c x)
    (hy : EncodesBack op a b c y) : EncodesBack op a b c (if op = k then x else y) := by
  split
  · next h => rw [h]; exact hx
  · exact hy

theorem encodesBack_decodeFields (op : BitVec 8) (a : BitVec 16) (b : BitVec 8) (c : BitVec 32) :
    EncodesBack op a b c (decodeFields op a b c) :=
  -- the bank window, 0x01 to 0x07
  .row .formatRST <| .row (.formatBK rfl rfl) <| .row (.formatBK rfl rfl) <| .row .formatRB <|
  .row (.formatBK rfl rfl) <| .row (.formatBK rfl rfl) <| .row .formatSRC <|
  -- the bus, 0x10 to 0x13
  .row .formatM_read <| .row (.ok rfl rfl) <| .row .formatF_ffRead <| .row .formatF_ffWrite <|
  -- the scheduler, 0x20 to 0x26
  .row (.formatCY rfl rfl) <| .row (.formatN rfl rfl) <| .row (.formatN rfl rfl) <| .row .formatS <|
  .row (.formatCY rfl rfl) <| .row .formatL <| .row (.formatN rfl rfl) <|
  -- interrupts and halt, 0x30 to 0x35
  .row (.formatN rfl rfl) <| .row (.formatCY rfl rfl) <| .row (.formatN rfl rfl) <| .row (.formatN rfl rfl) <|
  .row (.formatN rfl rfl) <| .row .formatI <|
  -- save state, 0x40 to 0x42
  .row (.formatN rfl rfl) <| .row (.formatN rfl rfl) <| .row (.formatN rfl rfl) <| .error .unknownOpcode

/-- A packet that decodes is the packet of a well-formed command. -/
theorem encode_of_decode {p : Packet} (h : decode p = .ok i) : i.wellFormed = true ∧ encode i = p := by
  obtain ⟨hw, he⟩ := encodesBack_decodeFields (opField p) (aField p) (bField p) (cField p) i h
  exact ⟨hw, he.trans (packFields_fields p)⟩

end

/-- Settles O2, by the round trip of each command. -/
theorem encodeThenDecode : Obligations.EncodeThenDecode := fun _ => decode_encode

/-- Settles O3: what decodes encodes back, and what is encoded decodes. -/
theorem decodeThenEncode : Obligations.DecodeThenEncode := by
  refine ⟨fun p i => encode_of_decode, fun p => ⟨?illegal, fun hnone => ?noCommand⟩⟩
  case illegal =>
    rintro ⟨e, he⟩ i hw rfl
    cases he.symm.trans (decode_encode hw)
  case noCommand =>
    cases hd : decode p with
    | error e => exact ⟨e, rfl⟩
    | ok i =>
      obtain ⟨hw, he⟩ := encode_of_decode hd
      exact absurd he (hnone i hw)

/-- Settles O1, by evaluating the decoder on the three packets. -/
theorem examplePacketsDecode : Obligations.ExamplePacketsDecode := by
  unfold Obligations.ExamplePacketsDecode
  decide

end Sys2Proof
end

section
/-! PROOFS. The packets that do not decode (30_encoding.md R101 to R104) and what they raise (60_exceptions.md R303);
and SET_OAMDMASRC with each of its codes (40_bank_window_ops.md R145). -/

namespace Sys2Proof

section
variable {op : BitVec 8} {a : BitVec 16} {b : BitVec 8} {c : BitVec 32}

/-- Format N has every bit but OP reserved. -/
theorem decodeN_of_ne_zero (h : a ≠ 0 ∨ b ≠ 0 ∨ c ≠ 0) (i : Instr) : decodeN a b c i = .error .reservedBit := by
  refine if_neg fun hzero => ?_
  simp only [Bool.and_eq_true, beq_iff_eq] at hzero
  obtain ⟨⟨ha, hb⟩, hc⟩ := hzero
  exact h.elim (· ha) (·.elim (· hb) (· hc))

/-- The rows of the opcode map with format N. -/
theorem decodeFields_formatN
    (h : op ∈ [0x21#8, 0x22#8, 0x26#8, 0x30#8, 0x32#8, 0x33#8, 0x34#8, 0x40#8, 0x41#8, 0x42#8]) :
    ∃ i, decodeFields op a b c = decodeN a b c i := by
  simp only [List.mem_cons, List.not_mem_nil, or_false] at h
  obtain rfl | rfl | rfl | rfl | rfl | rfl | rfl | rfl | rfl | rfl := h <;> exact ⟨_, rfl⟩

end

namespace Machine

/-- A packet that does not decode raises F_ILLEGAL_CMD. -/
theorem step_of_illegal {s : State} {k : Command} {rest : List Command} {e : DecodeError} (hc : s.commands = k :: rest)
    (hf : s.faulted = none) (hd : decode k.packet = .error e) : step s =
      .next (State.raise k.packet .illegalCmd (.packet k.packet) { s with commands := rest, inputs := k.inputs }) := by
  rw [step_cons hc, hd]
  exact runCommand_raise hf rfl rfl

/-- Settles O5, by the outcome of an illegal packet and the rows and reserved bits of the opcode map. -/
theorem illegalPacketRaises : Obligations.IllegalPacketRaises := by
  refine ⟨fun _ _ _ _ => step_of_illegal, fun p hop => ?unknownOpcode, fun p hop hne => ?reservedBit,
    fun p hop ha hc hb => ?badSourceCode⟩
  case unknownOpcode =>
    simp only [List.mem_cons, List.not_mem_nil, or_false, not_or] at hop
    simp only [decode, decodeFields, hop, if_false]
  case reservedBit =>
    obtain ⟨i, hi⟩ := decodeFields_formatN hop
    exact hi.trans (decodeN_of_ne_zero hne i)
  case badSourceCode =>
    rw [decode, hop, ha, hc]
    obtain hb | hb := hb <;> rw [hb] <;> rfl

/-! ## SET_OAMDMASRC -/

section
variable {s : State} {code : BitVec 3}

theorem gateOf_setOamDmaSrc_ne_running (code : BitVec 3) : gateOf (.setOamDmaSrc code) ≠ .running := by
  unfold gateOf
  split
  · exact loaded_ne_running
  · decide

theorem exec_setOamDmaSrc {d : DmaSrc} (hf : s.faulted = none) (hl : s.loaded = true)
    (hd : DmaSrc.ofCode code.toNat = some d) : exec (.setOamDmaSrc code) s = .next (s.clearOutputs.setDmaSrc d) :=
  exec_loaded hf hl (gateOf_setOamDmaSrc_ne_running code) (by simp only [bodyOf, hd])

theorem exec_setOamDmaSrc_illegal (hf : s.faulted = none) (hl : s.loaded = true)
    (hd : DmaSrc.ofCode code.toNat = none) : exec (.setOamDmaSrc code) s = .next
      (s.raise (encode (.setOamDmaSrc code)) .illegalCmd (.packet (encode (.setOamDmaSrc code)))) :=
  exec_loaded_raise hf hl (gateOf_setOamDmaSrc_ne_running code) (by simp only [bodyOf, hd])

end

/-- The codes 6 and 7 name no source. -/
theorem ofCode_eq_none : ∀ code : BitVec 3, 5 < code.toNat → DmaSrc.ofCode code.toNat = none := by decide

/-- Settles O43, by the source each code names. -/
theorem setDmaSource : Obligations.SetDmaSource := by
  intro s code d hf hl banks
  refine ⟨fun hmem => exec_setOamDmaSrc hf hl ?_,
    fun h => ⟨_, exec_setOamDmaSrc_illegal hf hl (ofCode_eq_none code h), rfl⟩⟩
  simp only [List.mem_cons, List.not_mem_nil, or_false, Prod.mk.injEq] at hmem
  rcases hmem with ⟨rfl, rfl⟩ | ⟨rfl, rfl⟩ | ⟨rfl, rfl⟩ | ⟨rfl, rfl⟩ | ⟨rfl, rfl⟩ | ⟨rfl, rfl⟩ <;> rfl

end Machine
end Sys2Proof
end

section
/-! PROOFS. A bus access after a bank command (40_bank_window_ops.md R137, R139): the bank command leaves a block whose
invariants hold, and READ and WRITE go through the window it derived. -/

namespace Sys2Proof.Machine

section
variable {i : Instr} {s t : State} {b : Banks}

/-- The state a bank command leaves: new banks, and the table derived from them (20_memory.md R83). -/
def State.rebanked (b : Banks) (s : State) : State :=
  { s with banks := b, table := deriveTable s.params s.geo b, outputs := {} }

theorem exec_banksLegal (h : exec i s = .next t) (hs : BanksLegal s) : BanksLegal t :=
  (exec_changes h).lift (R := fun s t => BanksLegal s → BanksLegal t) (fun _ => id) (fun f g => g ∘ f)
    Change.banksLegal hs

/-- A command that only replaces the banks and derives the table keeps the invariants, whatever the parameters. -/
theorem inv_rebanked (h : exec i s = .next (s.rebanked b)) (hs : Inv s) : Inv (s.rebanked b) where
  table := fun _ => rfl
  memory := hs.memory
  banks := exec_banksLegal h hs.banks
  running := hs.running
  halt := hs.halt
  blit := hs.blit
  counter := hs.counter
  serial := hs.serial
  sentinel := hs.sentinel

/-- SET_RAMBANK that raises no fault records its bank and its enables (R138). -/
theorem eq_rebanked_of_setRambank {bank : BitVec 8} {flags : BitVec 3} (h : exec (.setRambank bank flags) s = .next t)
    (hf : t.faulted = none) : t = s.rebanked { s.banks with rambank := bank, ramFlags := flags } := by
  obtain ⟨-, -, hbody⟩ := body_of_exec h hf
  rw [bodyOf, selectRambank] at hbody
  split_ifs at hbody
  exact (Except.ok.inj hbody).symm

end

/-- Settles O44: the switchable window of the state SET_ROMBANK leaves maps the bank it named. -/
theorem setRombankThenRead : Obligations.SetRombankThenRead := by
  intro s t bank a c h hs hc hbank hlo hhi hopen hexec
  obtain ⟨hlegal, -⟩ := setBanks s bank 0 0 h.1 h.2.1
  obtain ⟨-, hset⟩ := hlegal hbank
  obtain rfl : s.rebanked { s.banks with rombank := bank } = t := Host.Outcome.next.inj (hset.symm.trans hexec)
  obtain ⟨-, hread, -⟩ := readThroughWindow (s.rebanked _) a c h hc (inv_rebanked hexec hs)
  exact ⟨_, hread hlo hhi hopen, rfl⟩

/-- Settles O45: the read and the write window of the state SET_RAMBANK leaves, by its three enables and whether there
is RAM. -/
theorem setRambankThenAccess : Obligations.SetRambankThenAccess := by
  intro s t bank flags a v c h hs hc hlo hhi hopen hexec hf i reads
  obtain rfl := eq_rebanked_of_setRambank hexec hf
  have hinv := inv_rebanked hexec hs
  obtain ⟨-, -, -, -, -, hread⟩ := readThroughWindow (s.rebanked _) a c h hc hinv
  obtain ⟨-, -, -, -, hstore, -⟩ := writeStores (s.rebanked _) a v c h hc hinv
  obtain ⟨-, hclock, hdisabled, habsent, -⟩ := writeStoresNothing (s.rebanked _) a v c h hc hinv
  replace hread : reads (if flags.getLsbD 0 = false then 0xFF else if flags.getLsbD 2 then s.inputs.cartRd
      else if s.geo.ramBanks = 0 then 0xFF else s.byteAt .sram i) := hread hlo hhi hopen
  refine ⟨fun hoff => ?readDisabled, fun hrtc hram => ?readAbsent, fun hon hrtc hram => ?readBank,
    fun hon hrtc => ?readClock, fun hdrop => ?writeDropped, fun hon hrtc => hclock hlo hhi hopen hrtc hon,
    fun hon hrtc hram => hstore hlo hhi hopen hrtc hon hram⟩
  case readDisabled => rwa [if_pos hoff] at hread
  case readAbsent => rwa [hrtc, if_neg Bool.false_ne_true, if_pos hram, ite_self] at hread
  case readBank => rwa [hon, hrtc, if_neg Bool.noConfusion, if_neg Bool.false_ne_true, if_neg hram] at hread
  case readClock => rwa [hon, hrtc, if_neg Bool.noConfusion, if_pos rfl] at hread
  case writeDropped =>
    obtain hoff | ⟨hrtc, hram⟩ := hdrop
    · exact hdisabled hlo hhi hopen hoff
    · exact habsent hlo hhi hopen hrtc hram

end Sys2Proof.Machine
end

section
/-! PROOFS. READ on the slow path (41_bus_access.md R161 to R167) and WRITE while OAM DMA contends for the bus (R173 to
R177): what each blocked range does, and the command around it. -/

namespace Sys2Proof.Machine

section
variable {s : State} {a : Addr} {v : Byte} {c : Cycle}

/-! ## Reads of a blocked group answer a free byte -/

section
variable (ht : s.table = deriveTable s.params s.geo s.banks)
include ht

theorem busRead_rom_blocked (ha : a.toNat < 0x8000) (hblocked : s.romBlocked = true) :
    busRead a c s = .ok s.drawByte := by
  rw [busRead_of_slow ht ((deriveRAt_romBus ha).trans (if_pos hblocked)), slowRead, if_pos ha]

theorem busRead_sram_blocked (hlo : 0xA000 ≤ a.toNat) (hhi : a.toNat < 0xC000) (hblocked : s.sramBlocked = true) :
    busRead a c s = .ok s.drawByte := by
  rw [busRead_of_slow ht ((deriveRAt_sramBus hlo hhi).trans (if_pos hblocked)), slowRead, if_neg (by omega),
    if_neg (by omega), if_pos hhi, if_pos hblocked]

/-- The windows of working RAM are slow, and the echo of the switchable bank looks at the block itself (R164, R165). -/
theorem busRead_wram_blocked (hlo : 0xC000 ≤ a.toNat) (hhi : a.toNat < 0xFE00) (hblocked : s.wramBlocked = true) :
    busRead a c s = .ok s.drawByte := by
  by_cases hwin : a.toNat < 0xF000
  · rw [busRead_of_slow ht ((deriveRAt_wramBus hlo hwin).trans (if_pos hblocked)), slowRead, if_neg (by omega),
      if_neg (by omega), if_neg (by omega), if_pos hwin]
  · rw [busRead_high ht (by omega), slowRead_echo (by omega) hhi, slowReadEcho, if_pos hblocked]

theorem busRead_oam (hlo : 0xFE00 ≤ a.toNat) (hhi : a.toNat < 0xFEA0) : busRead a c s = slowReadOam a s :=
  (busRead_high ht (by omega)).trans (slowRead_oam hlo hhi)

theorem busRead_unusable (hlo : 0xFEA0 ≤ a.toNat) (hhi : a.toNat < 0xFF00) : busRead a c s = .ok (0xFF, s) := by
  rw [busRead_high ht (by omega), slowRead, if_neg (by omega), if_neg (by omega), if_neg (by omega),
    if_neg (by omega), if_neg (by omega), if_neg (by omega), if_pos hhi]

end

/-- READ of a byte of the Backing Store that exists. -/
theorem exec_read_byte {r : Region} {i : Int} (h : Ready s) (hc : CycleOk c s) (hi : r.Has s.geo i)
    (hb : busRead a c (s.begun c) = do return (← (s.begun c).readArena r i, s.begun c)) {j : Nat} (hij : i = j) :
    exec (.read a c) s = .next { s with cc := c, outputs := { rsp := .byte (s.byteAt r j) } } := by
  subst hij
  have hbyte : (s.begun c).readArena r j = .ok (s.byteAt r j) := State.readArena_ok hi.1 hi.2
  rw [hbyte] at hb
  exact exec_read h hc hb

/-- Settles O19, by the handler of each range. -/
theorem readSlowPath : Obligations.ReadSlowPath := by
  intro s a c h hc hs answers free
  have ht : (s.begun c).table = deriveTable s.params s.geo s.banks := hs.table h.2.1
  have hfree : busRead a c (s.begun c) = .ok (s.begun c).drawByte → free := exec_read h hc
  have hff : busRead a c (s.begun c) = .ok (0xFF, s.begun c) → answers 0xFF := exec_read h hc
  have hsel : s.banks.wramEff = max s.banks.wrambankSel.toNat 1 := rfl
  refine ⟨fun ha hblocked => hfree (busRead_rom_blocked (s := s.begun c) ht ha hblocked),
    fun hlo hhi hsrc => hfree ((busRead_vram (s := s.begun c) ht hlo hhi).trans (if_pos hsrc)),
    fun hlo hhi hsrc hok => ?vram, fun hlo hhi hsrc hok => hff ?vramDenied,
    fun hlo hhi hblocked => hfree (busRead_sram_blocked (s := s.begun c) ht hlo hhi hblocked),
    fun hlo hhi hblocked => hfree (busRead_wram_blocked (s := s.begun c) ht hlo hhi hblocked),
    fun hlo hhi hopen => ?echo,
    fun hlo hhi hsrc => hfree ((busRead_oam (s := s.begun c) ht hlo hhi).trans (if_pos hsrc)),
    fun hlo hhi hsrc hok => ?oam, fun hlo hhi hsrc hok => hff ?oamDenied,
    fun hlo hhi => hff (busRead_unusable (s := s.begun c) ht hlo hhi)⟩
  case vram =>
    exact exec_read_byte h hc (vramIndex_has s.geo s.banks hlo hhi)
      (busRead_vram_open (s := s.begun c) ht hlo hhi hsrc hok) (by rw [vramIndex]; omega)
  case vramDenied =>
    have hdenied : ¬s.inputs.vramOk = true := Bool.eq_false_iff.mp hok
    exact (busRead_vram (s := s.begun c) ht hlo hhi).trans ((if_neg hsrc).trans (if_neg hdenied))
  case echo =>
    refine exec_read_byte h hc (wramIndex_has h.2.1 hs.banks (by omega) hhi)
      (busRead_wram (s := s.begun c) ht (by omega) hhi hopen) ?_
    rw [wramIndex, if_neg (by omega), if_neg (by omega), if_neg (by omega), echoIndex, hsel]
    omega
  case oam =>
    exact exec_read_byte h hc (hiIndex_has s.geo hlo) (busRead_oam_open (s := s.begun c) ht hlo hhi hsrc hok)
      (by rw [hiIndex]; omega)
  case oamDenied =>
    have hdenied : ¬s.inputs.oamOk = true := Bool.eq_false_iff.mp hok
    exact (busRead_oam (s := s.begun c) ht hlo hhi).trans ((if_neg (not_not.mpr hsrc)).trans (if_neg hdenied))

/-! ## Writes to a blocked group -/

/-- A write to a blocked bus group that has windows is contended (R174, R175). -/
theorem slowWrite_contended (hlo : 0xA000 ≤ a.toNat) (hhi : a.toNat < 0xF000)
    (hblocked : a.toNat < 0xC000 → s.sramBlocked = true) : slowWrite a v c s = contendedWrite a v c s := by
  rw [slowWrite, if_neg (by omega), if_neg (by omega)]
  by_cases hsram : a.toNat < 0xC000
  · rw [if_pos hsram, if_pos (hblocked hsram)]
  · rw [if_neg hsram, if_pos hhi]

section
variable (ht : s.table = deriveTable s.params s.geo s.banks)
include ht

theorem busWrite_sram_blocked (hlo : 0xA000 ≤ a.toNat) (hhi : a.toNat < 0xC000) (hblocked : s.sramBlocked = true) :
    busWrite a v c s = contendedWrite a v c s :=
  (busWrite_of_slow ht ((deriveWAt_sramBus hlo hhi).trans (if_pos hblocked))).trans
    (slowWrite_contended hlo (by omega) fun _ => hblocked)

/-- A contended write of working RAM stores, or not, the byte its address names: the windows and the echo alike (R175,
R176). -/
theorem busWrite_wram_blocked (hlo : 0xC000 ≤ a.toNat) (hhi : a.toNat < 0xFE00) (hblocked : s.wramBlocked = true) :
    busWrite a v c s = s.writeArenaMaybe .wram (wramIndex s.banks a) v := by
  by_cases hwin : a.toNat < 0xF000
  · rw [busWrite_of_slow ht ((deriveWAt_wramBus hlo hwin).trans (if_pos hblocked)),
      slowWrite_contended (by omega) hwin (by omega), contendedWrite, baseW_wram hlo hwin, ← wram_bias s.banks hwin]
  · rw [busWrite_high ht (by omega), slowWrite_echo (by omega) hhi, slowWriteEcho, if_pos hblocked, wramIndex,
      if_neg (by omega), if_neg (by omega), if_neg hwin]

theorem busWrite_vram_source (hlo : 0x8000 ≤ a.toNat) (hhi : a.toNat < 0xA000) (hsrc : s.banks.oamDmaSrc = .vram) :
    busWrite a v c s = s.writeArenaMaybe .vram (vramIndex s.banks a) v := by
  rw [busWrite_low ht hhi, slowWrite_vram hlo hhi, slowWriteVram, if_pos hsrc]

theorem busWrite_oam_blocked (hlo : 0xFE00 ≤ a.toNat) (hhi : a.toNat < 0xFEA0) (hsrc : s.banks.oamDmaSrc ≠ .off) :
    busWrite a v c s = s.writeArenaMaybe .hi (hiIndex a) v := by
  rw [busWrite_high ht (by omega), slowWrite_oam hlo hhi, slowWriteOam, if_pos hsrc]

end

/-! ## A contended write by its base window -/

theorem contendedWrite_of_window {r : Region} {bias : Int} (hentry : baseW s.geo s.banks (nibble a) = .win r bias) :
    contendedWrite a v c s = s.writeArenaMaybe r (bias + a.toNat) v := by
  rw [contendedWrite, hentry]

theorem contendedWrite_of_discard (hentry : baseW s.geo s.banks (nibble a) = .discard) :
    contendedWrite a v c s = .ok { s with draws := s.draws + 1 } := by
  rw [contendedWrite, hentry, State.drawBool]

theorem contendedWrite_of_slow (hentry : baseW s.geo s.banks (nibble a) = .slow) :
    contendedWrite a v c s = .ok { s with
      draws := s.draws + 1
      outputs := { s.outputs with
        cartCtl := if Config.freeBool s.draws then some ⟨a, v, c⟩ else s.outputs.cartCtl } } := by
  rw [contendedWrite, hentry]
  rfl

/-! ## WRITE while the bus is contended -/

/-- A store of the byte that stands there changes nothing, in a canonical Backing Store (log 6). -/
theorem Arena.store_byte (hs : MemoryCanonical s) {r : Region} {i : Nat} (hi : i < r.length s.geo) :
    s.arena.store r i (s.arena.byte r i) = s.arena := by
  rw [Arena.store, Arena.byte, Memory.write_read hi (hs r)]
  cases r <;> rfl

/-- A contended WRITE of a byte that exists: as the free bit says it is stored, or nothing changes (log 15). -/
theorem exec_write_maybe {r : Region} {i : Int} (h : Ready s) (hc : CycleOk c s) (hs : MemoryCanonical s)
    (hi : r.Has s.geo i) (hw : busWrite a v c (s.begun c) = (s.begun c).writeArenaMaybe r i v) {j : Nat} (hij : i = j) :
    ∃ t, exec (.write a v c) s = .next t ∧
      t = { s with cc := c, draws := s.draws + 1, arena := t.arena, outputs := {} } ∧
      (if Config.freeBool s.draws then StoresOnly s t r j v else t.arena = s.arena) := by
  subst hij
  refine ⟨_, exec_write h hc (hw.trans (State.writeArenaMaybe_ok v hi.1 hi.2)), rfl, ?_⟩
  cases hbit : Config.freeBool s.draws <;> simp only [State.begun, hbit]
  case true => exact storesOnly_stored s c r rfl v
  case false => exact Arena.store_byte hs (Int.ofNat_lt.mp hi.2)

/-- Settles O25, by the handler of each blocked range and the base window of cartridge RAM. -/
theorem contendedWrites : Obligations.ContendedWrites := by
  intro s a v c h hc hs maybe
  have ht : (s.begun c).table = deriveTable s.params s.geo s.banks := hs.table h.2.1
  have hsel : s.banks.wramEff = max s.banks.wrambankSel.toNat 1 := rfl
  have hwram (hlo : 0xC000 ≤ a.toNat) (hhi : a.toNat < 0xFE00) (hblocked : s.wramBlocked = true) {j : Nat}
      (hj : wramIndex s.banks a = j) : maybe .wram j :=
    exec_write_maybe h hc hs.memory (wramIndex_has h.2.1 hs.banks hlo hhi)
      (busWrite_wram_blocked (s := s.begun c) ht hlo hhi hblocked) hj
  have hsram (hlo : 0xA000 ≤ a.toNat) (hhi : a.toNat < 0xC000) (hblocked : s.sramBlocked = true) :
      busWrite a v c (s.begun c) = contendedWrite a v c (s.begun c) :=
    busWrite_sram_blocked (s := s.begun c) ht hlo hhi hblocked
  have hbase (hlo : 0xA000 ≤ a.toNat) (hhi : a.toNat < 0xC000) : baseW s.geo s.banks (nibble a) = _ :=
    (baseW_sram hlo hhi).trans (ramW_eq ..)
  refine ⟨fun hlo hhi hsrc => ?vram, fun hlo hhi hblocked => hwram hlo (by omega) hblocked ?bank0,
    fun hlo hhi hblocked => hwram (by omega) (by omega) hblocked ?switchable,
    fun hlo hhi hblocked => hwram (by omega) (by omega) hblocked ?echo0,
    fun hlo hhi hblocked => hwram (by omega) hhi hblocked ?echo, fun hlo hhi hsrc => ?oam,
    fun hlo hhi hblocked hon hclock hram => ?sram, fun hlo hhi hblocked hoff => ?dropped,
    fun hlo hhi hblocked hon hclock => ?clock⟩
  case vram =>
    exact exec_write_maybe h hc hs.memory (vramIndex_has s.geo s.banks hlo hhi)
      (busWrite_vram_source (s := s.begun c) ht hlo hhi hsrc) (by rw [vramIndex]; omega)
  case oam =>
    exact exec_write_maybe h hc hs.memory (hiIndex_has s.geo hlo)
      (busWrite_oam_blocked (s := s.begun c) ht hlo hhi hsrc) (by rw [hiIndex]; omega)
  case bank0 | switchable | echo0 | echo =>
    rw [wramIndex, echoIndex, hsel]
    split_ifs <;> omega
  case sram =>
    have hwin := hbase hlo hhi
    rw [writeEn, hon, rtcEn, hclock, if_neg Bool.noConfusion, if_neg Bool.false_ne_true, if_neg hram] at hwin
    exact exec_write_maybe h hc hs.memory (sram_has h.2.1 hs.banks hram hlo hhi)
      ((hsram hlo hhi hblocked).trans (contendedWrite_of_window (s := s.begun c) hwin)) (by omega)
  case dropped =>
    have hdiscard : baseW s.geo s.banks (nibble a) = .discard := by
      rw [hbase hlo hhi, writeEn, rtcEn]
      obtain hoff | ⟨hclock, hram⟩ := hoff
      · rw [if_pos hoff]
      · rw [hclock, if_neg Bool.false_ne_true, if_pos hram, ite_self]
    exact exec_write h hc ((hsram hlo hhi hblocked).trans (contendedWrite_of_discard (s := s.begun c) hdiscard))
  case clock =>
    have hslow := hbase hlo hhi
    rw [writeEn, hon, if_neg Bool.noConfusion, rtcEn, if_pos hclock] at hslow
    exact exec_write h hc ((hsram hlo hhi hblocked).trans (contendedWrite_of_slow (s := s.begun c) hslow))

end

end Sys2Proof.Machine
end

section
/-! PROOFS. The I/O page (41_bus_access.md R168, R178 to R194): READ and WRITE of 0xFF00 + p are FF_READ and FF_WRITE
of p, what each register reads as, that HRAM is plain storage, and what a write of every register but the timer's
does. -/

namespace Sys2Proof.Machine

section
variable {s : State} {p v : Byte} {c : Cycle}

/-! ## The address of an I/O offset -/

/-- The bus address of I/O offset `p`. -/
abbrev ioAddr (p : Byte) : Addr := 0xFF00#16 + p.setWidth 16

theorem ioAddr_toNat (p : Byte) : (ioAddr p).toNat = 0xFF00 + p.toNat := by
  have := p.isLt
  simp only [ioAddr, BitVec.toNat_add, BitVec.toNat_setWidth, BitVec.toNat_ofNat]
  omega

theorem ioAddr_low (p : Byte) : (ioAddr p).extractLsb' 0 8 = p := by
  apply BitVec.eq_of_toNat_eq
  have := p.isLt
  rw [BitVec.extractLsb'_toNat, ioAddr_toNat, Nat.shiftRight_zero]
  omega

section
variable (h : Ready s) (hc : CycleOk c s)
include h hc

/-- READ of an I/O address is FF_READ of its offset (R168). -/
theorem exec_read_ioAddr (ht : TableDerived s) (p : Byte) : exec (.read (ioAddr p) c) s = exec (.ffRead p c) s := by
  obtain ⟨w, n, hread, -⟩ := ffRead_answers p c (s.begun c)
  have hbus : busRead (ioAddr p) c (s.begun c) = ffRead p c (s.begun c) := by
    rw [busRead_io (s := s.begun c) (ht h.2.1) (by rw [ioAddr_toNat]; omega), ioAddr_low]
  rw [exec_ffRead h hc hread, exec_read h hc (hbus.trans hread)]

/-- WRITE of an I/O address is FF_WRITE of its offset, where that does not fault (R178, R191). -/
theorem exec_write_ioAddr (ht : TableDerived s) (hbank : ¬SvbkAbsent s p v) :
    exec (.write (ioAddr p) v c) s = exec (.ffWrite p v c) s := by
  obtain ⟨t, hwrite⟩ := ffWrite_completes (s := s.begun c) c hbank
  have hbus : busWrite (ioAddr p) v c (s.begun c) = ffWrite p v c (s.begun c) := by
    rw [busWrite_io (s := s.begun c) (ht h.2.1) (by rw [ioAddr_toNat]; omega), ioAddr_low]
  rw [exec_ffWrite h hc hwrite, exec_write h hc (hbus.trans hwrite)]

/-- FF_WRITE of SVBK that selects an absent bank raises F_BANK (R191). -/
theorem exec_ffWrite_absent (hbank : SvbkAbsent s p v) : exec (.ffWrite p v c) s =
    .next (s.raise (encode (.ffWrite p v c)) .bank (.bank ((v.extractLsb' 0 3).setWidth 16))) :=
  exec_ready_raise h (by
    simp only [bodyOf, ffWriteBody, tick_begun hc, Except.bind_ok, ffWrite_absent (s := s.begun c) c hbank])

end

/-! ## Reads -/

/-- The DIV read value in numbers (R184, 42_scheduler.md R223). -/
theorem divRead_eq (q : Params) (u : TimerUnit) (c : Cycle) :
    divRead q u c = BitVec.ofNat 8 (((c - u.divBase).toNat % 2 ^ 16) / 2 ^ q.divShift) := by
  apply BitVec.eq_of_toNat_eq
  simp only [divRead, divider, BitVec.extractLsb'_toNat, BitVec.toNat_ushiftRight, Nat.shiftRight_eq_div_pow,
    Nat.pow_zero, Nat.div_one, BitVec.toNat_ofNat]

theorem ffRead_vbk (hcgb : s.geo.isCgb = true) :
    ffRead 0x4F c s = .ok (s.drawUnder 0x01 (s.banks.vrambank.setWidth 8)) := by
  rw [ffRead, hcgb]; rfl

theorem ffRead_svbk (hcgb : s.geo.isCgb = true) :
    ffRead 0x70 c s = .ok (s.drawUnder 0x07 (s.banks.wrambankSel.setWidth 8)) := by
  rw [ffRead, hcgb]; rfl

theorem ffRead_hram (hlo : 0x80 ≤ p.toNat) (hie : p ≠ 0xFF) :
    ffRead p c s = .ok (s.byteAt .hi (0x100 + p.toNat), s) := by
  have hhas := hramIndex_has s.geo p
  rw [ffRead, ioReg_hram _ p hlo hie]
  simp only [State.readArena_ok hhas.1 hhas.2, Except.bind_ok]
  rfl

theorem ffRead_delegated (hlo : p.toNat < 0x80) (hcore : p ∉ [0x01, 0x02, 0x04, 0x05, 0x06, 0x07, 0x0F, 0x46])
    (hcgb : p ∈ [0x4F, 0x70] → s.geo.isCgb = false) : ffRead p c s = .ok (s.inputs.extRd, s) := by
  rw [ffRead, ioReg_delegated _ p hlo hcore hcgb]

/-- Settles O20, by the read rule of each register. -/
theorem ioReads : Obligations.IoReads := by
  intro s c p h hc hs answers partly
  have hanswers (p v : Byte) (hread : ffRead p c (s.begun c) = .ok (v, s.begun c)) : answers p v :=
    exec_ffRead h hc hread
  have hpartly (p mask v : Byte) (hread : ffRead p c (s.begun c) = .ok ((s.begun c).drawUnder mask v)) :
      partly p mask v := exec_ffRead h hc hread
  refine ⟨hanswers _ _ rfl, hpartly _ _ _ rfl, hanswers _ _ ?div, hanswers _ _ rfl, hpartly _ _ _ rfl,
    hpartly _ _ _ rfl, hanswers _ _ rfl, fun hcgb => hpartly _ _ _ (ffRead_vbk (s := s.begun c) hcgb),
    fun hcgb => hpartly _ _ _ (ffRead_svbk (s := s.begun c) hcgb), hanswers _ _ rfl,
    fun hlo hie => hanswers _ _ (ffRead_hram (s := s.begun c) hlo hie),
    fun hlo hcore hcgb => hanswers _ _ (ffRead_delegated (s := s.begun c) hlo hcore hcgb),
    exec_read_ioAddr h hc hs.table p⟩
  case div => rw [← divRead_eq s.params s.timer c]; rfl

/-! ## HRAM -/

theorem ffWrite_hram (hlo : 0x80 ≤ p.toNat) (hie : p ≠ 0xFF) :
    ffWrite p v c s = s.writeArena .hi (hramIndex p) v := by
  rw [ffWrite, ioReg_hram _ p hlo hie]

/-- Settles O27: the write rule of HRAM does not look at the DMA source, and its read rule answers what it stored. -/
theorem hramNeverContended : Obligations.HramNeverContended := by
  intro s p v c h hc hs hlo hie
  have hhas := hramIndex_has s.geo p
  have hexec : exec (.ffWrite p v c) s = .next (s.stored c .hi (hramIndex p) v) :=
    exec_ffWrite h hc ((ffWrite_hram (s := s.begun c) hlo hie).trans (State.writeArena_ok v hhas.1 hhas.2))
  have hstores : StoresOnly s (s.stored c .hi (hramIndex p) v) .hi (0x100 + p.toNat) v :=
    storesOnly_stored s c .hi (by rw [hramIndex]; omega) v
  have hsvbk : ¬SvbkAbsent s p v := fun ⟨_, hp, _⟩ => by rw [hp] at hlo; exact absurd hlo (by decide)
  have hc' : CycleOk c (s.stored c .hi (hramIndex p) v) := ⟨BitVec.le_refl c, hc.2⟩
  have hread : exec (.ffRead p c) (s.stored c .hi (hramIndex p) v) = _ :=
    exec_ffRead h hc' (ffRead_hram (s := (s.stored c .hi (hramIndex p) v).begun c) hlo hie)
  have hbyte : ((s.stored c .hi (hramIndex p) v).begun c).byteAt .hi (0x100 + p.toNat) = v := hstores.1
  rw [hbyte] at hread
  exact ⟨_, hexec, rfl, hstores, (exec_write_ioAddr h hc hs.table hsvbk).trans hexec, hread,
    (exec_read_ioAddr (s := s.stored c .hi (hramIndex p) v) h hc' hs.table p).trans hread⟩

/-! ## Writes -/

theorem serialControl_starts (hstart : v.getLsbD 7 = true) (hinternal : v.getLsbD 0 = true) :
    serialControl v c s =
      let bit := if s.geo.isCgb && v.getLsbD 1 then s.params.serialBitFast else s.params.serialBitSlow
      { s with
        serial := { s.serial with sc := v, serialBits := 8 }
        time := { s.time with serial := c + BitVec.ofNat 32 bit } } := by
  rw [serialControl, hstart, hinternal]
  rfl

theorem serialControl_stops (hoff : v.getLsbD 7 = false ∨ v.getLsbD 0 = false) :
    serialControl v c s = { s with
      serial := { s.serial with sc := v, serialBits := 0 }, time := { s.time with serial := disabled } } := by
  have hboth : ¬(v.getLsbD 7 && v.getLsbD 0) = true := by
    rw [Bool.and_eq_true, not_and_or]
    exact hoff.imp Bool.eq_false_iff.mp Bool.eq_false_iff.mp
  exact if_neg hboth

/-- A field widened and read back. -/
theorem extractLsb'_setWidth_self {n : Nat} (x : BitVec n) {m : Nat} (hn : n ≤ m) :
    (x.setWidth m).extractLsb' 0 n = x := by
  rw [← BitVec.setWidth_eq_extractLsb' hn, BitVec.setWidth_setWidth_of_le _ hn, BitVec.setWidth_eq]

/-- No window maps VRAM: a new VRAM bank leaves the table as derived (20_memory.md R67, R75). -/
theorem derive_vrambank (ht : s.table = deriveTable s.params s.geo s.banks) (k : BitVec 1) :
    State.derive { s with banks := { s.banks with vrambank := k } } =
      { s with banks := { s.banks with vrambank := k } } :=
  (congrArg (fun w => { s with banks := { s.banks with vrambank := k }, table := w }) ht).symm

/-- VBK selects the VRAM bank (R190). -/
theorem ffWrite_vbk (ht : s.table = deriveTable s.params s.geo s.banks) (hcgb : s.geo.isCgb = true) :
    ffWrite 0x4F v c s = .ok { s with banks := { s.banks with vrambank := v.extractLsb' 0 1 } } := by
  have hbank : ¬1 < ((v.extractLsb' 0 1).setWidth 16).toNat := by
    rw [BitVec.toNat_setWidth]
    omega
  have hselect : ffWrite 0x4F v c s = selectVrambank ((v.extractLsb' 0 1).setWidth 16) s := by
    rw [ffWrite, hcgb]
    rfl
  rw [hselect, selectVrambank, if_neg hbank, extractLsb'_setWidth_self _ (by decide), derive_vrambank ht]

/-- SVBK selects the WRAM bank, and the table is derived again (R191, 20_memory.md R83). -/
theorem ffWrite_svbk (hcgb : s.geo.isCgb = true) (hbank : max (v.toNat % 8) 1 < s.geo.wramBanks.toNat) :
    ffWrite 0x70 v c s =
      .ok (State.derive { s with banks := { s.banks with wrambankSel := v.extractLsb' 0 3 } }) := by
  have hselect : ffWrite 0x70 v c s = selectWrambank ((v.extractLsb' 0 3).setWidth 16) s := by
    rw [ffWrite, hcgb]
    rfl
  rw [hselect, selectWrambank, wramBankOf_svbk, if_neg (by omega), extractLsb'_setWidth_self _ (by decide)]

theorem ffWrite_delegated (hlo : p.toNat < 0x80) (hcore : p ∉ [0x01, 0x02, 0x04, 0x05, 0x06, 0x07, 0x0F, 0x46])
    (hcgb : p ∈ [0x4F, 0x70] → s.geo.isCgb = false) : ffWrite p v c s = .ok (s.emitExt p v c) := by
  rw [ffWrite, ioReg_delegated _ p hlo hcore hcgb]

/-- Settles O28, by the write rule of each register. -/
theorem ioWrites : Obligations.IoWrites := by
  intro s p v c h hc hs becomes quiet bit
  have hbecomes (p : Byte) (t : State) (hwrite : ffWrite p v c (s.begun c) = .ok { t with cc := c, outputs := {} }) :
      becomes p t := exec_ffWrite h hc hwrite
  have hwake (q : Irq) : (.ok { s.begun c with irq := wakeIrq q } : Except Abort State) = _ :=
    congrArg (fun q => Except.ok { s.begun c with irq := q }) (wakeIrq_eq q)
  refine ⟨hbecomes _ _ rfl, fun hstart hinternal => hbecomes _ _ ?starts, fun hoff => hbecomes _ _ ?stops,
    hbecomes _ _ (hwake _), hbecomes _ _ (hwake _), hbecomes _ _ rfl,
    fun hcgb => hbecomes _ _ (ffWrite_vbk (s := s.begun c) (hs.table h.2.1) hcgb),
    fun hcgb hbank => hbecomes _ _ (ffWrite_svbk (s := s.begun c) hcgb hbank),
    fun hcgb habsent => ⟨_, exec_ffWrite_absent h hc ⟨hcgb, rfl, habsent⟩, rfl⟩,
    fun hlo hcore hcgb => exec_ffWrite h hc (ffWrite_delegated (s := s.begun c) hlo hcore hcgb),
    fun t hexec hf => ?write⟩
  case starts => exact congrArg Except.ok (serialControl_starts (s := s.begun c) hstart hinternal)
  case stops => exact congrArg Except.ok (serialControl_stops (s := s.begun c) hoff)
  case write =>
    have hpresent : ¬SvbkAbsent s p v := fun habsent => by
      obtain rfl := Host.Outcome.next.inj ((exec_ffWrite_absent h hc habsent).symm.trans hexec)
      exact Option.some_ne_none _ hf
    exact (exec_write_ioAddr h hc hs.table hpresent).trans hexec

end

end Sys2Proof.Machine
end

section
/-! PROOFS. A write of a timer register (41_bus_access.md R184 to R188, 42_scheduler.md R225 to R227): what bringing
TIMA up to the cycle can change, and the trigger recomputed from the registers the write leaves. -/

namespace Sys2Proof.Machine

/-! ## Bringing TIMA up to a cycle -/

/-- What overflows and increments of TIMA can change: TIMA's own count and trigger, request bit 2 (only set) and
`halted` (only cleared). -/
structure CatchesUp (s t : State) : Prop where
  frame : t = { s with
    timer := t.timer, time := { s.time with tima := t.time.tima }
    irq := { s.irq with IF := t.irq.IF, halted := t.irq.halted } }
  request : t.irq.IF = s.irq.IF ∨ t.irq.IF = s.irq.IF ||| irqTimer
  halted : t.irq.halted = true → s.irq.halted = true
  divBase : t.timer.divBase = s.timer.divBase
  tma : t.timer.tma = s.timer.tma
  tac : t.timer.tac = s.timer.tac

section
variable {s t u : State}

theorem CatchesUp.refl (s : State) : CatchesUp s s := ⟨rfl, .inl rfl, id, rfl, rfl, rfl⟩

theorem CatchesUp.trans (h : CatchesUp s t) (k : CatchesUp t u) : CatchesUp s u where
  frame := by rw [k.frame, h.frame]
  request := by
    obtain hk | hk := k.request
    · rw [hk]
      exact h.request
    · obtain ht | ht := h.request <;> rw [hk, ht]
      · exact .inr rfl
      · exact .inr (by rw [BitVec.or_assoc, BitVec.or_self])
  halted := h.halted ∘ k.halted
  divBase := k.divBase.trans h.divBase
  tma := k.tma.trans h.tma
  tac := k.tac.trans h.tac

theorem CatchesUp.count (h : CatchesUp s t) (x : Byte) (last : Cycle) :
    CatchesUp s { t with timer := { t.timer with tima := x, timaLast := last } } :=
  h.trans ⟨rfl, .inl rfl, id, rfl, rfl, rfl⟩

theorem catchesUp_timaOverflow (c : Cycle) (s : State) : CatchesUp s (timaOverflow c s) where
  frame := by rw [timaOverflow, State.raiseIrq, wakeIrq_eq]; rfl
  request := .inr (wakeIrq_IF _)
  halted h := by
    have hwoken : (wakeIrq { s.irq with IF := s.irq.IF ||| irqTimer }).halted = true := h
    rw [wakeIrq_halted, Bool.and_eq_true] at hwoken
    exact hwoken.1
  divBase := rfl
  tma := rfl
  tac := rfl

theorem catchesUp_timaCatchUp (n : Nat) (c : Cycle) (s : State) : CatchesUp s (timaCatchUp n c s) := by
  induction n generalizing s with
  | zero => exact .refl s
  | succ n ih =>
    rw [timaCatchUp]
    split
    · exact (catchesUp_timaOverflow _ s).trans (ih _)
    · exact .refl s

theorem catchesUp_timaRun (c : Cycle) (s : State) : CatchesUp s (timaRun c s) := by
  unfold timaRun
  split
  · exact (catchesUp_timaCatchUp ((c - s.time.tima).toNat + 1) c s).count _ c
  · exact (CatchesUp.refl s).count s.timer.tima c

theorem catchesUp_divGlitch (c : Cycle) (s : State) : CatchesUp s (divGlitch c s) := by
  unfold divGlitch
  split_ifs
  · exact catchesUp_timaOverflow c s
  · exact (CatchesUp.refl s).count _ s.timer.timaLast
  · exact .refl s

end

/-! ## The four registers -/

/-- The timer registers after a write of `v` at offset `p` (R184 to R188): the one written holds the value, a write of
DIV moves the divider base, and the rest that sets the rate stays. -/
structure TimerWritten (p v : Byte) (c : Cycle) (u w : TimerUnit) : Prop where
  timaLast : w.timaLast = c
  divBase : w.divBase = if p = 0x04 then c else u.divBase
  tima : p = 0x05 → w.tima = v
  tma : w.tma = if p = 0x06 then v else u.tma
  tac : w.tac = if p = 0x07 then v.extractLsb' 0 3 else u.tac

/-- A timer write brings TIMA up to its cycle, writes its register, and sets the trigger afresh (42_scheduler.md R225,
R226). -/
theorem ffWrite_timer {p : Byte} (hp : p ∈ [0x04, 0x05, 0x06, 0x07]) (v : Byte) (c : Cycle) (s : State) :
    ∃ x w, CatchesUp s x ∧ TimerWritten p v c s.timer w ∧
      ffWrite p v c s = .ok (State.rescheduleTima c { x with timer := w }) := by
  have hrun := catchesUp_timaRun c s
  simp only [List.mem_cons, List.not_mem_nil, or_false] at hp
  obtain rfl | rfl | rfl | rfl := hp
  · have hglitch := hrun.trans (catchesUp_divGlitch c _)
    exact ⟨_, { (divGlitch c (timaRun c s)).timer with divBase := c, timaLast := c }, hglitch,
      ⟨rfl, rfl, fun h => absurd h (by decide), hglitch.tma, hglitch.tac⟩, rfl⟩
  · exact ⟨_, { (timaRun c s).timer with tima := v }, hrun,
      ⟨rfl, hrun.divBase, fun _ => rfl, hrun.tma, hrun.tac⟩, rfl⟩
  · exact ⟨_, { (timaRun c s).timer with tma := v }, hrun,
      ⟨rfl, hrun.divBase, fun h => absurd h (by decide), rfl, hrun.tac⟩, rfl⟩
  · exact ⟨_, { (timaRun c s).timer with tac := v.extractLsb' 0 3, timaLast := c }, hrun,
      ⟨rfl, hrun.divBase, fun h => absurd h (by decide), hrun.tma, rfl⟩, rfl⟩

/-- The trigger in numbers (42_scheduler.md R223, R225). -/
theorem timaSchedule_eq (p : Params) (u : TimerUnit) (c : Cycle) :
    timaSchedule p u c =
      let period := [p.timaPeriod0, p.timaPeriod1, p.timaPeriod2, p.timaPeriod3].getD (u.tac.toNat % 4) 0
      if u.tac.getLsbD 2 = false then disabled
      else u.divBase + BitVec.ofNat 32 (((c - u.divBase).toNat / period + (256 - u.tima.toNat)) * period) := by
  rw [timaSchedule, timaTicks, timaPeriod_eq, timaRuns]

/-- Settles O29, by what bringing TIMA up can change and what the write then sets. -/
theorem timerWrites : Obligations.TimerWrites := by
  intro s p v c h hc hp
  obtain ⟨x, w, hx, hw, hwrite⟩ := ffWrite_timer hp v c (s.begun c)
  have hparams : x.params = s.params := by rw [hx.frame]; rfl
  refine ⟨_, exec_ffWrite h hc hwrite, ?frame, hx.request, hx.halted, hw.timaLast, hw.divBase, hw.tima, hw.tma, hw.tac,
    ?trigger⟩
  case frame => rw [hx.frame]; rfl
  case trigger => exact (congrArg (timaSchedule · w c) hparams).trans (timaSchedule_eq s.params w c)

end Sys2Proof.Machine
end

section
/-! PROOFS. REBASE is seen by no read (42_scheduler.md R216): every read rule commutes with it, at a cycle moved back by
the delta; and what it does to the next event time and to the service test of 43_irq_halt.md R259. -/

namespace Sys2Proof.Machine

section
variable {s t x : State} {c d : Cycle}

/-! ## The timer's reads -/

/-- An interval between two cycles does not see them moved back together. -/
theorem timaTicks_rebased (p : Params) (u : TimerUnit) (y d : Cycle) :
    timaTicks p { u with divBase := u.divBase - d, timaLast := u.timaLast - d, lastOvf := u.lastOvf.map (· - d) }
      (y - d) = timaTicks p u y := by
  rw [timaTicks, timaTicks, sub_sub_sub_cancel_right]

theorem divRead_rebased (d : Cycle) (x : State) :
    divRead x.params (x.rebased d).timer (c - d) = divRead x.params x.timer c := by
  rw [divRead, divRead, divider, divider, State.rebased, sub_sub_sub_cancel_right]

theorem timaAdvanced_rebased (d : Cycle) (x : State) :
    timaAdvanced x.params (x.rebased d).timer (c - d) = timaAdvanced x.params x.timer c := by
  rw [timaAdvanced, timaAdvanced, incs, incs, State.rebased, timaTicks_rebased, timaTicks_rebased]

/-- A trigger moved back is due at a cycle moved back where it was due (DISABLED never). -/
theorem due_rebaseTime {y : Cycle} (hy : d ≤ y) (hc : d ≤ c) :
    (rebaseTime d y != disabled && decide (rebaseTime d y ≤ c - d)) = (y != disabled && decide (y ≤ c)) := by
  by_cases hoff : y = disabled
  · rw [hoff, rebaseTime, if_pos rfl]
    rfl
  · have hkept : rebaseTime d y ≠ disabled := mt (rebaseTime_eq_disabled_iff hy).mp hoff
    have hle : rebaseTime d y ≤ c - d ↔ y ≤ c := by
      rw [rebaseTime, if_neg hoff]
      bv_omega
    rw [bne_iff_ne.mpr hkept, bne_iff_ne.mpr hoff, decide_eq_decide.mpr hle]

theorem timaReadOpen_rebased (htima : d ≤ x.time.tima) (hc : d ≤ c) :
    timaReadOpen (x.rebased d) (c - d) = timaReadOpen x c := by
  rw [timaReadOpen, timaReadOpen]
  congr 1
  · exact due_rebaseTime htima hc
  · have hlast : (x.rebased d).timer.lastOvf = x.timer.lastOvf.map (· - d) := rfl
    rw [hlast]
    cases x.timer.lastOvf with
    | none => rfl
    | some o => simp only [Option.map_some, sub_sub_sub_cancel_right]; rfl

/-! ## Every read commutes with REBASE -/

/-- What a read answers, in the state REBASE leaves. -/
def rebasedAnswer (d : Cycle) : Except Abort (Byte × State) → Except Abort (Byte × State) :=
  Except.map (Prod.map id (State.rebased d))

theorem readArena_rebased (d : Cycle) (r : Region) (i : Int) (x : State) :
    (do return (← (x.rebased d).readArena r i, x.rebased d)) =
      rebasedAnswer d (do return (← x.readArena r i, x)) := by
  show (do return (← x.readArena r i, x.rebased d)) = _
  cases x.readArena r i <;> rfl

/-- The answer of a read that branches. -/
theorem rebasedAnswer_ite (p : Prop) [Decidable p] (y z : Except Abort (Byte × State)) :
    rebasedAnswer d (if p then y else z) = if p then rebasedAnswer d y else rebasedAnswer d z :=
  apply_ite (rebasedAnswer d) p y z

theorem slowReadVram_rebased (a : Addr) (d : Cycle) (x : State) :
    slowReadVram a (x.rebased d) = rebasedAnswer d (slowReadVram a x) := by
  rw [slowReadVram, slowReadVram, rebasedAnswer_ite, rebasedAnswer_ite, ← readArena_rebased]
  rfl

theorem slowReadEcho_rebased (a : Addr) (d : Cycle) (x : State) :
    slowReadEcho a (x.rebased d) = rebasedAnswer d (slowReadEcho a x) := by
  rw [slowReadEcho, slowReadEcho, rebasedAnswer_ite, ← readArena_rebased]
  rfl

theorem slowReadOam_rebased (a : Addr) (d : Cycle) (x : State) :
    slowReadOam a (x.rebased d) = rebasedAnswer d (slowReadOam a x) := by
  rw [slowReadOam, slowReadOam, rebasedAnswer_ite, rebasedAnswer_ite, ← readArena_rebased]
  rfl

section
variable (htima : d ≤ x.time.tima) (hc : d ≤ c)
include htima hc

theorem timaAt_rebased : timaAt (c - d) (x.rebased d) = Prod.map id (State.rebased d) (timaAt c x) := by
  have hruns : timaRuns (x.rebased d).timer = timaRuns x.timer := rfl
  rw [timaAt, timaAt, hruns, timaReadOpen_rebased htima hc]
  split_ifs
  · rfl
  · rfl
  · exact congrArg (·, x.rebased d) (timaAdvanced_rebased d x)

theorem ffRead_rebased (p : Byte) : ffRead p (c - d) (x.rebased d) = rebasedAnswer d (ffRead p c x) := by
  have hgeo : (x.rebased d).geo = x.geo := rfl
  rw [ffRead, ffRead, hgeo]
  cases ioReg x.geo.isCgb p with
  | sb | tma | dma | intEnable | delegated | sc | tac | intFlag | vbk | svbk => rfl
  | div => exact congrArg (fun v => Except.ok (v, x.rebased d)) (divRead_rebased d x)
  | tima => exact congrArg Except.ok (timaAt_rebased htima hc)
  | hram => exact readArena_rebased d .hi (hramIndex p) x

theorem slowRead_rebased (a : Addr) : slowRead a (c - d) (x.rebased d) = rebasedAnswer d (slowRead a c x) := by
  have hblocked : (x.rebased d).sramBlocked = x.sramBlocked := rfl
  rw [slowRead, slowRead, slowReadVram_rebased, slowReadEcho_rebased, slowReadOam_rebased,
    ffRead_rebased htima hc, hblocked]
  simp only [rebasedAnswer_ite]
  rfl

theorem busRead_rebased (a : Addr) : busRead a (c - d) (x.rebased d) = rebasedAnswer d (busRead a c x) := by
  have hentry : (x.rebased d).readEntry a = x.readEntry a := rfl
  rw [busRead, busRead, hentry]
  cases x.readEntry a with
  | win r bias => exact readArena_rebased d r _ x
  | slow => exact slowRead_rebased htima hc a

end

/-! ## The next event time and the service test -/

theorem minCycle_rebaseTime {y z : Cycle} (hy : d ≤ y) (hz : d ≤ z) :
    minCycle (rebaseTime d y) (rebaseTime d z) = rebaseTime d (minCycle y z) := by
  have hle : rebaseTime d y ≤ rebaseTime d z ↔ y ≤ z := by
    unfold rebaseTime
    split_ifs <;> bv_omega
  rw [minCycle, minCycle, apply_ite (rebaseTime d)]
  exact if_congr hle rfl rfl

theorem le_minCycle {y z : Cycle} (hy : d ≤ y) (hz : d ≤ z) : d ≤ minCycle y z := by
  unfold minCycle
  split <;> assumption

/-- The next event time moves back by the delta, or stays DISABLED. -/
theorem minTime_rebased (hd : d ≤ minTime x.time) : minTime (x.rebased d).time = rebaseTime d (minTime x.time) := by
  have hle := le_minTime_iff.mp hd
  have hblit : d ≤ x.time.blit := hle .blit
  have hserial : d ≤ x.time.serial := hle .serial
  have hdma : d ≤ x.time.oamDma := hle .oamDma
  have htima : d ≤ x.time.tima := hle .tima
  have hlyc : d ≤ x.time.lyc := hle .lyc
  have htimaLyc := le_minCycle htima hlyc
  have hfromDma := le_minCycle hdma htimaLyc
  have hfromSerial := le_minCycle hserial hfromDma
  rw [minTime, minTime, State.rebased, minCycle_rebaseTime htima hlyc, minCycle_rebaseTime hdma htimaLyc,
    minCycle_rebaseTime hserial hfromDma, minCycle_rebaseTime hblit hfromSerial]

/-- An EI cycle moved back lies below a cycle moved back where it lay below it, unless it wrapped past the counter. -/
theorem eiCycle_sub_lt_iff {y : Cycle} (hc : d ≤ c) : y - d < c - d ↔ d ≤ y ∧ y < c := by
  bv_omega

/-- The service test after REBASE: as before, and false where R216 wrapped the EI cycle. -/
theorem mayService_rebased (hc : d ≤ c) :
    mayService (x.rebased d).irq (c - d) = if d ≤ x.irq.eiCycle then mayService x.irq c else false := by
  have htest : mayService (x.rebased d).irq (c - d) =
      (x.irq.ime && pend x.irq != 0 && decide (d ≤ x.irq.eiCycle ∧ x.irq.eiCycle < c)) :=
    congrArg (x.irq.ime && pend x.irq != 0 && ·) (decide_eq_decide.mpr (eiCycle_sub_lt_iff hc))
  rw [htest, Bool.decide_and]
  split
  · next hkept => rw [decide_eq_true hkept, Bool.true_and, mayService]
  · next hwrapped => rw [decide_eq_false hwrapped, Bool.false_and, Bool.and_false]

/-! ## A command after REBASE -/

/-- REBASE that raises no fault leaves the state moved back, by a delta neither the counter nor a trigger is below. -/
theorem eq_rebased_of_exec (hexec : exec (.rebase d) s = .next t) (hf : t.faulted = none) :
    d ≤ s.cc ∧ d ≤ minTime s.time ∧ t = s.clearOutputs.rebased d := by
  obtain ⟨-, -, hbody⟩ := body_of_exec hexec hf
  rw [bodyOf, rebaseBody] at hbody
  split_ifs at hbody with hbad
  obtain ⟨hcc, htime⟩ := not_or.mp hbad
  exact ⟨BitVec.not_lt.mp hcc, BitVec.not_lt.mp htime, (Except.ok.inj hbody).symm⟩

/-- Settles O51, for every read rule commutes with REBASE. -/
theorem rebaseIsInvisible : Obligations.RebaseIsInvisible := by
  intro s t d c h hexec hf hc
  obtain ⟨hcc, htime, rfl⟩ := eq_rebased_of_exec hexec hf
  have hdc : d ≤ c := BitVec.le_trans hcc hc.1
  have htima : d ≤ s.time.tima := le_minTime_iff.mp htime .tima
  have ht : Ready (s.clearOutputs.rebased d) := h
  have hct : CycleOk (c - d) (s.clearOutputs.rebased d) := by
    obtain ⟨hle, hlimit⟩ := hc
    have hcc' : (s.clearOutputs.rebased d).cc = s.cc - d := rfl
    have hlimit' : (s.clearOutputs.rebased d).params = s.params := rfl
    rw [CycleOk, hcc', hlimit']
    constructor <;> bv_omega
  have hffRead (p : Byte) : ∃ u w, exec (.ffRead p c) s = .next u ∧
      exec (.ffRead p (c - d)) (s.clearOutputs.rebased d) = .next w ∧ w.outputs = u.outputs ∧ w.draws = u.draws := by
    obtain ⟨v, n, hread, -⟩ := ffRead_answers p c (s.begun c)
    have hmoved := ffRead_rebased (x := s.begun c) htima hdc p
    rw [hread] at hmoved
    exact ⟨_, _, exec_ffRead h hc hread, exec_ffRead ht hct hmoved, rfl, rfl⟩
  have hbusRead (hs : Inv s) (a : Addr) : ∃ u w, exec (.read a c) s = .next u ∧
      exec (.read a (c - d)) (s.clearOutputs.rebased d) = .next w ∧ w.outputs = u.outputs ∧ w.draws = u.draws := by
    obtain ⟨v, n, hread, -⟩ := busRead_answers (s := s.begun c) h.2.1 hs.table hs.banks a c
    have hmoved := busRead_rebased (x := s.begun c) htima hdc a
    rw [hread] at hmoved
    exact ⟨_, _, exec_read h hc hread, exec_read ht hct hmoved, rfl, rfl⟩
  refine ⟨?div, hffRead 0x05, fun hs a p => ⟨hbusRead hs a, hffRead p⟩,
    fun hkept => (mayService_rebased (x := s.clearOutputs) hdc).trans (if_pos hkept),
    fun hwrapped => (mayService_rebased (x := s.clearOutputs) hdc).trans (if_neg (BitVec.not_le.mpr hwrapped)),
    minTime_rebased (x := s.clearOutputs) htime⟩
  case div =>
    obtain ⟨u, w, hu, hw, hout, -⟩ := hffRead 0x04
    exact ⟨u, w, hu, hw, hout⟩

end

end Sys2Proof.Machine
end

section
/-! PROOFS. The priority order of the units (42_scheduler.md R202, R203) and what EVENT leaves when it dispatches BLIT,
LYC, TIMA or SERIAL (R221, R227, R229, R231). -/

namespace Sys2Proof.Machine

/-! ## The next unit -/

/-- The index of a unit in the priority order (R202). -/
abbrev priority (u : SchedUnit) : Nat := [SchedUnit.blit, .serial, .oamDma, .tima, .lyc].idxOf u

/-- The list of the order gives each unit back from its index. -/
theorem priority_injective : Function.Injective priority :=
  Function.LeftInverse.injective (g := ([SchedUnit.blit, .serial, .oamDma, .tima, .lyc].getD · .blit))
    fun u => by cases u <;> rfl

/-- No unit that triggers first comes before the next unit. -/
theorem priority_nextUnit_le {x : Times} {u : SchedUnit} (hu : x.get u = minTime x) :
    priority (nextUnit x) ≤ priority u := by
  unfold nextUnit
  cases u with
  | blit => rw [if_pos (c := x.blit = minTime x) hu]
  | serial => rw [if_pos (c := x.serial = minTime x) hu]; split_ifs <;> decide
  | oamDma => rw [if_pos (c := x.oamDma = minTime x) hu]; split_ifs <;> decide
  | tima => rw [if_pos (c := x.tima = minTime x) hu]; split_ifs <;> decide
  | lyc => split_ifs <;> decide

/-- Settles O33, by the tests of `nextUnit` in their order. -/
theorem priorityOrder : Obligations.PriorityOrder :=
  fun x => ⟨minTime_le x, get_nextUnit x, fun _ => priority_nextUnit_le⟩

/-- Unit `u` triggers before those of higher priority and no later than the others. -/
def TriggersFirst (x : Times) (u : SchedUnit) : Prop :=
  ∀ v, if priority v < priority u then x.get u < x.get v else x.get u ≤ x.get v

/-- The unit that triggers first is the next unit. -/
theorem TriggersFirst.nextUnit_eq {x : Times} {u : SchedUnit} (h : TriggersFirst x u) :
    minTime x = x.get u ∧ nextUnit x = u := by
  have hle : ∀ v, x.get u ≤ x.get v := fun v => by
    have hv := h v
    split at hv
    · exact BitVec.le_of_lt hv
    · exact hv
  have hmin : minTime x = x.get u := BitVec.le_antisymm (minTime_le x u) (le_minTime_iff.mpr hle)
  refine ⟨hmin, priority_injective (le_antisymm (priority_nextUnit_le hmin.symm) (Nat.not_lt.mp fun hbefore => ?_))⟩
  have hlt := h (nextUnit x)
  rw [if_pos hbefore, get_nextUnit, hmin] at hlt
  exact BitVec.lt_irrefl _ hlt

section
variable {s : State} {c : Cycle}

/-- EVENT where unit `u` triggers first and is due. -/
theorem exec_event_first {u : SchedUnit} {t : State} (h : Ready s) (hc : CycleOk c s) (hfirst : TriggersFirst s.time u)
    (hdue : s.time.get u ≤ c) (hb : dispatch u (s.time.get u) (s.begun c) = .ok t) :
    exec (.event c) s = .next (t.respond (.word (minTime t.time))) := by
  obtain ⟨hmin, hnext⟩ := hfirst.nextUnit_eq
  exact exec_event_due h hc (hmin ▸ hdue) (by rw [hnext, hmin]; exact hb)

/-! ## The frame units -/

theorem lycRaises_iff : lycRaises s = true ↔
    s.lyc.lycEnable = false ∨ s.params.lycVisibleMax < s.lyc.lycReg.toNat ∨ s.lyc.lycReg = 0 := by
  simp only [lycRaises, Bool.or_eq_true, Bool.not_eq_true', decide_eq_true_eq, beq_iff_eq, or_assoc]

/-- Settles O34, by the dispatch of each frame unit. -/
theorem eventFrameUnits : Obligations.EventFrameUnits := by
  refine ⟨fun s c h hc hdue hserial hdma htima hlyc => ?blit,
    fun s c h hc hdue hblit hserial hdma htima => ?lyc⟩
  case blit =>
    have hfirst : TriggersFirst s.time .blit := by
      rintro (_ | _ | _ | _ | _)
      exacts [BitVec.le_refl _, hserial, hdma, htima, hlyc]
    exact exec_event_first h hc hfirst hdue rfl
  case lyc =>
    intro frame time raises IF irq
    have hfirst : TriggersFirst s.time .lyc := by
      rintro (_ | _ | _ | _ | _)
      exacts [hblit, hserial, hdma, htima, BitVec.le_refl _]
    have hexec := exec_event_first h hc hfirst hdue rfl
    have hraises : lycRaises (s.begun c) = true ↔ raises := lycRaises_iff
    constructor
    · intro hr
      rw [hexec, lycDispatch, if_pos (hraises.mpr hr), State.raiseIrq, wakeIrq_eq]
      rfl
    · intro hr
      rw [hexec, lycDispatch, if_neg (mt hraises.mp hr)]
      rfl

/-! ## TIMA -/

/-- Settles O35, by the overflow of TIMA at its trigger time. -/
theorem eventTima : Obligations.EventTima := by
  intro s c h hc hdue hblit hserial hdma hlyc
  have hfirst : TriggersFirst s.time .tima := by
    rintro (_ | _ | _ | _ | _)
    exacts [hblit, hserial, hdma, BitVec.le_refl _, hlyc]
  rw [exec_event_first h hc hfirst hdue rfl, timaOverflow, State.raiseIrq, wakeIrq_eq, timaPeriod_eq]
  rfl

/-! ## SERIAL -/

theorem serialBitsLeft_of_ne_zero (h : s.serial.serialBits ≠ 0) :
    serialBitsLeft s = (s.serial.serialBits - 1, s) := if_neg h

/-- The bit clock does not look at the data register. -/
theorem serialDispatch_eq (t : Cycle) (s : State) : serialDispatch t s =
    let u := { s with
      draws := (serialBitsLeft s).2.draws
      serial := { s.serial with sb := s.serial.sb <<< 1 ||| 1, serialBits := (serialBitsLeft s).1 } }
    if (serialBitsLeft s).1 = 0 then
      State.setTime .serial disabled
        (State.raiseIrq irqSerial { u with serial := { u.serial with sc := s.serial.sc &&& 0x7F } })
    else u.setTime .serial (t + BitVec.ofNat 32 (serialPeriod s)) := by
  by_cases h : s.serial.serialBits = 0
  · simp only [serialDispatch, serialBitsLeft, h, if_true]; rfl
  · simp only [serialDispatch, serialBitsLeft, h, if_false]; rfl

/-- The last bit of a transfer: the start bit is cleared, the request raised and the unit disarmed (R229). -/
theorem serialDispatch_last (t : Cycle) (h : s.serial.serialBits = 1) : serialDispatch t s =
    State.setTime .serial disabled (State.raiseIrq irqSerial { s with
      serial := { sb := s.serial.sb <<< 1 ||| 1, sc := s.serial.sc &&& 0x7F, serialBits := 0 } }) := by
  rw [serialDispatch_eq, serialBitsLeft_of_ne_zero (by rw [h]; decide), h]
  rfl

/-- Any other bit arms the unit one bit on. -/
theorem serialDispatch_more (t : Cycle) (h0 : s.serial.serialBits ≠ 0) (h1 : s.serial.serialBits ≠ 1) :
    serialDispatch t s = State.setTime .serial (t + BitVec.ofNat 32 (serialPeriod s)) { s with
      serial := { s.serial with sb := s.serial.sb <<< 1 ||| 1, serialBits := s.serial.serialBits - 1 } } := by
  rw [serialDispatch_eq, serialBitsLeft_of_ne_zero h0]
  exact if_neg (mt sub_eq_zero.mp h1)

/-- A one shifted in doubles the successor. -/
theorem shiftOneIn_add_one : ∀ x : Byte, (x <<< 1 ||| 1) + 1 = (x + 1) * 2 := by decide

/-- What is left of a transfer after its last bit. -/
structure TransferDone (k : Nat) (s t : State) : Prop where
  sb : t.serial.sb + 1 = (s.serial.sb + 1) * 2 ^ k
  bits : t.serial.serialBits = 0
  request : t.irq.IF.getLsbD 3 = true
  sc : t.serial.sc = s.serial.sc &&& 0x7F
  trigger : t.time.serial = disabled

/-- As many dispatches as bits are left end a transfer, at whatever times. -/
theorem transferDone_foldl {k : Nat} {times : List Cycle} (hlen : times.length = k + 1)
    (hbits : s.serial.serialBits.toNat = k + 1) :
    TransferDone (k + 1) s (times.foldl (fun s x => serialDispatch x s) s) := by
  induction k generalizing s times with
  | zero =>
    obtain ⟨x, rfl⟩ := List.length_eq_one_iff.mp hlen
    rw [List.foldl_cons, List.foldl_nil, serialDispatch_last x (BitVec.eq_of_toNat_eq hbits)]
    refine ⟨shiftOneIn_add_one _, rfl, ?_, rfl, rfl⟩
    simp [irqSerial]
  | succ k ih =>
    obtain ⟨x, rest, rfl⟩ := List.exists_cons_of_length_eq_add_one hlen
    have h0 : s.serial.serialBits ≠ 0 := by bv_omega
    have h1 : s.serial.serialBits ≠ 1 := by bv_omega
    rw [List.foldl_cons, serialDispatch_more x h0 h1]
    have hrest := ih (s := State.setTime .serial (x + BitVec.ofNat 32 (serialPeriod s)) { s with
      serial := { s.serial with sb := s.serial.sb <<< 1 ||| 1, serialBits := s.serial.serialBits - 1 } })
      (Nat.succ.inj hlen) (by show (s.serial.serialBits - 1).toNat = k + 1; bv_omega)
    refine ⟨hrest.sb.trans ?_, hrest.bits, hrest.request, hrest.sc, hrest.trigger⟩
    show ((s.serial.sb <<< 1 ||| 1) + 1) * 2 ^ (k + 1) = _
    rw [shiftOneIn_add_one, mul_assoc, ← pow_succ']

/-- Settles O36, by the last bit and by any other; and by the induction over the bits left. -/
theorem eventSerial : Obligations.EventSerial := by
  refine ⟨fun s c h hc hdue hblit hdma htima hlyc h0 => ?event, fun s times hbits hlen => ?transfer⟩
  case event =>
    have hfirst : TriggersFirst s.time .serial := by
      rintro (_ | _ | _ | _ | _)
      exacts [hblit, BitVec.le_refl _, hdma, htima, hlyc]
    have hexec := exec_event_first h hc hfirst hdue rfl
    constructor
    · intro h1
      rw [hexec, serialDispatch_last (s := s.begun c) _ h1, State.raiseIrq, wakeIrq_eq]
      rfl
    · intro h1
      rw [hexec, serialDispatch_more (s := s.begun c) _ h0 h1]
      rfl
  case transfer =>
    have hdone := transferDone_foldl (s := s) (k := 7) hlen (by rw [hbits]; rfl)
    have hsb := hdone.sb
    refine ⟨?_, hdone.bits, hdone.request, hdone.sc, hdone.trigger⟩
    rw [show (2 : Byte) ^ (7 + 1) = 0 from by decide, mul_zero] at hsb
    exact eq_neg_of_add_eq_zero_left hsb

end

end Sys2Proof.Machine
end

section
/-! PROOFS. The queries (42_scheduler.md R206, R232, 43_irq_halt.md R263, R264, 44_save_state.md R284). -/

namespace Sys2Proof.Machine

/-- The next event time is an armed unit's, for BLIT is armed while the machine runs (42_scheduler.md R203). -/
theorem minTime_ne_disabled {x : Times} (h : x.blit ≠ disabled) : minTime x ≠ disabled := by
  have hle := minTime_le x .blit
  simp only [Times.get] at hle
  bv_omega

/-- Settles O52, by the body of each query. -/
theorem queries : Obligations.Queries := by
  refine ⟨fun s h hs => ⟨exec_ready h rfl, minTime_ne_disabled (hs.blit h.2.2), exec_ready h rfl, exec_ready h rfl,
    exec_ready h rfl, exec_ready h rfl⟩, fun s hf hl => ⟨_, exec_loaded hf hl loaded_ne_running rfl, ?size⟩⟩
  case size =>
    have hwram := s.geo.wramBanks.isLt
    have hram := s.geo.ramBanks.isLt
    exact Nat.mod_eq_of_lt (by rw [State.clearOutputs_geo, stateSize]; omega)

end Sys2Proof.Machine
end

section
/-! PROOFS. The TIMA read value and its trigger (42_scheduler.md R223 to R225). -/

namespace Sys2Proof.Machine

/-! ## Reading TIMA -/

section
variable {s : State} {c : Cycle}

theorem timaReadOpen_iff : timaReadOpen s c = true ↔ (s.time.tima ≠ disabled ∧ s.time.tima ≤ c) ∨
    ∃ o, s.timer.lastOvf = some o ∧ (c - o).toNat < s.params.timaReloadWindow := by
  rw [timaReadOpen, Bool.or_eq_true, Bool.and_eq_true, bne_iff_ne, decide_eq_true_eq]
  cases s.timer.lastOvf <;> simp

/-- The increments of TIMA in numbers (R223, R224). -/
theorem timaAdvanced_eq (p : Params) (u : TimerUnit) (c : Cycle) :
    timaAdvanced p u c =
      let period := [p.timaPeriod0, p.timaPeriod1, p.timaPeriod2, p.timaPeriod3].getD (u.tac.toNat % 4) 0
      BitVec.ofInt 8 ((u.tima.toNat : Int) + ((c - u.divBase).toNat / period : Nat)
        - ((u.timaLast - u.divBase).toNat / period : Nat)) := by
  rw [timaAdvanced, incs, timaTicks, timaTicks, timaPeriod_eq, ← add_sub_assoc]

theorem timaAt_of_stopped (hstopped : timaRuns s.timer = false) : timaAt c s = (s.timer.tima, s) := if_pos hstopped

theorem timaAt_of_open (hruns : timaRuns s.timer = true) (hopen : timaReadOpen s c = true) :
    timaAt c s = s.drawByte := by
  rw [timaAt, hruns, hopen]
  rfl

theorem timaAt_of_counted (hruns : timaRuns s.timer = true) (hopen : ¬timaReadOpen s c = true) :
    timaAt c s = (timaAdvanced s.params s.timer c, s) := by
  rw [timaAt, hruns, if_neg hopen]
  rfl

/-- FF_READ of TIMA on a ready block. -/
theorem exec_ffRead_tima (h : Ready s) (hc : CycleOk c s) {v : Byte} {t : State}
    (hread : timaAt c (s.begun c) = (v, t)) : exec (.ffRead 0x05 c) s = .next (t.respond (.byte v)) :=
  exec_ffRead h hc (congrArg Except.ok hread)

end

/-- Settles O21, by the three cases of the read rule. -/
theorem timaRead : Obligations.TimaRead := by
  intro s c h hc answers free due reload period
  have hopen : timaReadOpen (s.begun c) c = true ↔ due ∨ reload := timaReadOpen_iff
  refine ⟨fun hstopped => ?stopped, fun hruns hany => ?free, fun hruns hdue hreload => ?counted⟩
  case stopped => exact exec_ffRead_tima h hc (timaAt_of_stopped hstopped)
  case free => exact exec_ffRead_tima h hc (timaAt_of_open hruns (hopen.mpr hany))
  case counted =>
    have hread := exec_ffRead_tima h hc (timaAt_of_counted hruns (mt hopen.mp (not_or.mpr ⟨hdue, hreload⟩)))
    rw [timaAdvanced_eq] at hread
    exact hread

/-! ## The trigger -/

/-- The multiple of a period reached after `k` more increments lies ahead, by at most `k` periods. -/
theorem multiple_after {d period k : Nat} (hk : 0 < k) (hpos : 0 < period) :
    d < (d / period + k) * period ∧ (d / period + k) * period ≤ d + k * period := by
  have hle := Nat.div_mul_le_self d period
  have hlt := Nat.lt_div_mul_add (a := d) hpos
  have hstep := Nat.le_mul_of_pos_left period hk
  rw [Nat.add_mul]
  omega

/-- Settles O31: the trigger is the multiple of the period at which the missing increments are made, and no count up to
it wraps. -/
theorem timaScheduleIsNextOverflow : Obligations.TimaScheduleIsNextOverflow := by
  intro p u c x hp hruns hc hspan n
  obtain ⟨hpos, hmax⟩ := timaPeriod_bounds hp u.tac
  have htima := u.tima.isLt
  have hlimit : p.rebaseLimit ≤ 0x80000000 := by
    simp only [Params.legal, Bool.and_eq_true, decide_eq_true_eq] at hp
    omega
  have hn : n = u.divBase + BitVec.ofNat 32 ((timaTicks p u c + (256 - u.tima.toNat)) * timaPeriod p u.tac) :=
    if_neg (by rw [timaRuns, hruns]; decide)
  obtain ⟨hafter, hbound⟩ := multiple_after (d := (c - u.divBase).toNat) (k := 256 - u.tima.toNat) (by omega) hpos
  have hmissing : (256 - u.tima.toNat) * timaPeriod p u.tac ≤ 256 * timaPeriod p u.tac :=
    Nat.mul_le_mul_right _ (Nat.sub_le _ _)
  rw [← timaTicks] at hafter hbound
  have hreached : (n - u.divBase).toNat = (timaTicks p u c + (256 - u.tima.toNat)) * timaPeriod p u.tac := by
    rw [hn, add_sub_cancel_left, BitVec.toNat_ofNat, Nat.mod_eq_of_lt (by omega)]
  rw [← hreached] at hafter hbound
  have hticks : timaTicks p u n = timaTicks p u c + (256 - u.tima.toNat) := by
    rw [timaTicks, hreached, Nat.mul_div_cancel _ hpos]
  refine ⟨by bv_omega, by bv_omega, by rw [incs, hticks]; omega, fun hcx hxn => ?before⟩
  case before =>
    have hbefore : (x - u.divBase).toNat < (timaTicks p u c + (256 - u.tima.toNat)) * timaPeriod p u.tac := by
      rw [← hreached]; bv_omega
    have hfewer : timaTicks p u x < timaTicks p u c + (256 - u.tima.toNat) :=
      Nat.div_lt_of_lt_mul (Nat.mul_comm _ _ ▸ hbefore)
    rw [incs]
    omega

end Sys2Proof.Machine
end

section
/-! PROOFS. The line arithmetic of LYC and BLIT (42_scheduler.md R218 to R220, R230). -/

namespace Sys2Proof.Machine

/-! ## One frame back -/

/-- A trigger time more than one frame on is moved back by one (R219, R230). -/
def pulledBack (frame : Nat) (c t : Cycle) : Cycle := if frame < (t - c).toNat then t - BitVec.ofNat 32 frame else t

/-- Time `r` is `t`, moved back by a frame or not, and lies after `c` and at most one frame on. -/
def WithinFrame (frame : Nat) (c t r : Cycle) : Prop :=
  (r = t ∨ r = t - BitVec.ofNat 32 frame) ∧ 0 < (r - c).toNat ∧ (r - c).toNat ≤ frame

/-- A time at most two frames on, moved back by a frame or not, lies at most one frame on. -/
theorem pulledBack_within {frame : Nat} {c t : Cycle} (hpos : 0 < (t - c).toNat) (hmax : (t - c).toNat ≤ 2 * frame) :
    WithinFrame frame c t (pulledBack frame c t) := by
  unfold pulledBack
  split
  · exact ⟨.inr rfl, by bv_omega, by bv_omega⟩
  · next hnear => exact ⟨.inl rfl, hpos, Nat.le_of_not_lt hnear⟩

section
variable {frame start offset : Nat} {c lyTime : Cycle} (hpos : 0 < (lyTime - c).toNat)
  (hstart : (lyTime - c).toNat + start ≤ frame) (hoffset : offset ≤ frame) (hframe : frame ≤ 0x2000000)
include hpos hstart hoffset hframe

/-- A time within the frame that starts `start` cycles after a line's end, itself at most a frame on. -/
theorem pulledBack_offset :
    let t := lyTime + BitVec.ofNat 32 (start + offset)
    WithinFrame frame c t (pulledBack frame c t) :=
  pulledBack_within (by bv_omega) (by bv_omega)

/-- The cycle before such a time. -/
theorem pulledBack_offset_sub_one (hlater : 0 < offset) :
    let t := lyTime + BitVec.ofNat 32 (start + offset) - 1
    WithinFrame frame c t (pulledBack frame c t) :=
  pulledBack_within (by bv_omega) (by bv_omega)

end

theorem dsShift_eq_mul (ds : Bool) (x : Nat) : dsShift ds x = x * (if ds then 2 else 1) := by
  cases ds <;> simp

section
variable {s : State} {c : Cycle}

theorem lycSchedule_above (h : s.params.lastLine < s.lyc.lycReg.toNat) : lycSchedule s c = disabled := if_pos h

/-- Where in the frame the compare line triggers (R220). -/
def lycTarget (s : State) : Nat :=
  if s.lyc.lycReg = 0 then s.params.lastLine * s.params.lineCycles + s.params.lyc0Offset
  else s.lyc.lycReg.toNat * s.params.lineCycles

/-- The LYC trigger of a line that exists (R220). -/
theorem lycSchedule_eq (h : s.lyc.lycReg.toNat ≤ s.params.lastLine) :
    let k := if s.ds then 2 else 1
    lycSchedule s c = pulledBack (s.params.frameCycles * k) c (s.inputs.lyTime + BitVec.ofNat 32
      ((s.params.lastLine - s.inputs.ly.toNat) * s.params.lineCycles * k + lycTarget s * k) - 1) := by
  rw [lycSchedule, if_neg (Nat.not_lt.mpr h), ite_not, ← lycTarget]
  simp only [dsShift_eq_mul, Nat.add_mul]
  rfl

/-- The BLIT trigger (R230). -/
theorem blitSchedule_eq :
    let k := if s.ds then 2 else 1
    blitSchedule s c = pulledBack (s.params.frameCycles * k) c (s.inputs.lyTime + BitVec.ofNat 32
      ((s.params.lastLine - s.inputs.ly.toNat) * s.params.lineCycles * k
        + s.params.vblankLine * s.params.lineCycles * k)) := by
  rw [blitSchedule]
  simp only [dsShift_eq_mul, Nat.add_mul]
  rfl

end

/-! ## The lines of a frame -/

section
variable {p : Params} (hp : Params.legal p = true)
include hp

/-- A frame is the last line and the lines before it (00_scope.md R9). -/
theorem frameCycles_eq : p.frameCycles = p.lastLine * p.lineCycles + p.lineCycles := by
  simp only [Params.legal, Bool.and_eq_true, decide_eq_true_eq] at hp
  obtain ⟨⟨⟨-, hframe⟩, hlines⟩, -⟩ := hp
  rw [hframe, hlines, Nat.mul_comm, Nat.succ_mul]

theorem line_le_frameCycles {n : Nat} (hn : n ≤ p.lastLine) : n * p.lineCycles ≤ p.frameCycles := by
  rw [frameCycles_eq hp]
  exact (Nat.mul_le_mul_right _ hn).trans (Nat.le_add_right _ _)

theorem lycTarget_bounds {s : State} (hs : s.params = p) (hlast : 0 < p.lastLine)
    (hreg : s.lyc.lycReg.toNat ≤ p.lastLine) : 0 < lycTarget s ∧ lycTarget s ≤ p.frameCycles := by
  have hframe := frameCycles_eq hp
  have hline := line_le_frameCycles hp hreg
  obtain ⟨hlength, hoffset⟩ : 0 < p.lineCycles ∧ p.lyc0Offset ≤ p.lineCycles := by
    simp only [Params.legal, Bool.and_eq_true, decide_eq_true_eq] at hp
    omega
  rw [lycTarget, hs]
  split
  · exact ⟨Nat.add_pos_left (Nat.mul_pos hlast hlength) _, by omega⟩
  · next hne => exact ⟨Nat.mul_pos (Nat.pos_of_ne_zero fun h0 => hne (BitVec.eq_of_toNat_eq h0)) hlength, hline⟩

/-- A legal LY view's next frame starts at most one frame on (42_scheduler.md R210). -/
theorem frameStart_le {d k n : Nat} (hd : d ≤ p.lineCycles * k) :
    d + (p.lastLine - n) * p.lineCycles * k ≤ p.frameCycles * k := by
  have hrest : (p.lastLine - n) * p.lineCycles * k ≤ p.lastLine * p.lineCycles * k :=
    Nat.mul_le_mul_right k (Nat.mul_le_mul_right _ (Nat.sub_le _ _))
  rw [frameCycles_eq hp, Nat.add_mul]
  omega

end

/-- Settles O49: the next frame starts at most one frame after the cycle and each line lies within it, so one frame
back is enough. -/
theorem triggersWithinFrame : Obligations.TriggersWithinFrame := by
  intro s c hp hlast hly hpos hview k frame toFrameStart target line blank
  have hmax := (isInterval_frame hp s.ds).2
  rw [dsShift_eq_mul] at hmax
  have hk : 0 < k := by cases hds : s.ds <;> simp [k, hds]
  have hstart : (s.inputs.lyTime - c).toNat + toFrameStart ≤ s.params.frameCycles * k :=
    frameStart_le hp (by rw [← dsShift_eq_mul]; exact hview)
  refine ⟨lycSchedule_above, fun hreg => ?lyc, ?blit⟩
  case lyc =>
    obtain ⟨htargetPos, htargetMax⟩ := lycTarget_bounds hp rfl hlast hreg
    rw [lycSchedule_eq hreg]
    exact pulledBack_offset_sub_one hpos hstart (Nat.mul_le_mul_right k htargetMax) hmax (Nat.mul_pos htargetPos hk)
  case blit =>
    have hvblank : s.params.vblankLine ≤ s.params.lastLine := by
      simp only [Params.legal, Bool.and_eq_true, decide_eq_true_eq] at hp
      omega
    rw [blitSchedule_eq]
    exact pulledBack_offset hpos hstart (Nat.mul_le_mul_right k (line_le_frameCycles hp hvblank)) hmax

end Sys2Proof.Machine
end

section
/-! PROOFS. A timer write brings TIMA up to its cycle (42_scheduler.md R225 to R227): the increments where no overflow is
due, and else every overflow, one reload interval after the one before. -/

namespace Sys2Proof.Machine

/-! ## The overflows that are due -/

/-- Between `s` and `t` TIMA overflowed, for the last time at `last`: each overflow reloads it from the same TMA. -/
structure Overflowed (last : Cycle) (s t : State) : Prop where
  timer : t.timer = { s.timer with tima := s.timer.tma, timaLast := last, lastOvf := some last }
  request : t.irq.IF = s.irq.IF ||| irqTimer
  params : t.params = s.params

section
variable {s t x : State} {c last last' : Cycle}

theorem overflowed_timaOverflow (c : Cycle) (s : State) : Overflowed c s (timaOverflow c s) :=
  ⟨rfl, wakeIrq_IF _, rfl⟩

theorem Overflowed.trans (h : Overflowed last s t) (k : Overflowed last' t x) : Overflowed last' s x where
  timer := by rw [k.timer, h.timer]
  request := by rw [k.request, h.request, BitVec.or_assoc, BitVec.or_self]
  params := k.params.trans h.params

theorem timaCatchUp_idle (n : Nat) (h : ¬(s.time.tima ≠ disabled ∧ s.time.tima ≤ c)) : timaCatchUp n c s = s := by
  cases n with
  | zero => rfl
  | succ n => exact if_neg h

theorem timaCatchUp_due (n : Nat) (hoff : s.time.tima ≠ disabled) (hdue : s.time.tima ≤ c) :
    timaCatchUp (n + 1) c s = timaCatchUp n c (timaOverflow s.time.tima s) := if_pos ⟨hoff, hdue⟩

/-- The cycles from one overflow to the next (R227). -/
def reloadInterval (s : State) : Nat := (256 - s.timer.tma.toNat) * timaPeriod s.params s.timer.tac

theorem timaOverflow_time_tima (c : Cycle) (s : State) :
    (timaOverflow c s).time.tima = c + BitVec.ofNat 32 (reloadInterval s) := rfl

theorem reloadInterval_timaOverflow (c : Cycle) (s : State) : reloadInterval (timaOverflow c s) = reloadInterval s := rfl

/-- One overflow due, and the next not. -/
theorem overflowed_once (n : Nat) (hoff : s.time.tima ≠ disabled) (hdue : s.time.tima ≤ c)
    (hnext : ¬((timaOverflow s.time.tima s).time.tima ≠ disabled ∧ (timaOverflow s.time.tima s).time.tima ≤ c)) :
    Overflowed s.time.tima s (timaCatchUp (n + 1) c s) := by
  rw [timaCatchUp_due n hoff hdue, timaCatchUp_idle n hnext]
  exact overflowed_timaOverflow _ s

/-- The last multiple of an interval up to a cycle, from the one before it. -/
theorem last_multiple_step {c o : Cycle} {d : Nat} (hd : IsInterval d) (hle : d ≤ (c - o).toNat) :
    (c - (o + BitVec.ofNat 32 d)).toNat = (c - o).toNat - d ∧
      o + BitVec.ofNat 32 d + BitVec.ofNat 32 (((c - o).toNat - d) / d * d) =
        o + BitVec.ofNat 32 ((c - o).toNat / d * d) := by
  obtain ⟨hpos, hmax⟩ := hd
  refine ⟨by bv_omega, ?_⟩
  rw [Nat.div_eq_sub_div hpos hle, Nat.add_mul, Nat.one_mul, BitVec.add_assoc, ← BitVec.ofNat_add, Nat.add_comm d]

/-- Every overflow that is due happens, one reload interval after the one before. -/
theorem overflowed_timaCatchUp {n : Nat} (hp : Params.legal s.params = true) (hc : c.toNat < s.params.rebaseLimit)
    (hdue : s.time.tima ≤ c) (hn : (c - s.time.tima).toNat < n) :
    Overflowed (s.time.tima + BitVec.ofNat 32 ((c - s.time.tima).toNat / reloadInterval s * reloadInterval s)) s
      (timaCatchUp n c s) := by
  induction n generalizing s with
  | zero => exact absurd hn (Nat.not_lt_zero _)
  | succ n ih =>
    have hinterval : IsInterval (reloadInterval s) := isInterval_tima hp _ _
    have hlimit : c.toNat < 0x80000000 := by
      simp only [Params.legal, Bool.and_eq_true, decide_eq_true_eq] at hp
      omega
    have hoff : s.time.tima ≠ disabled := by bv_omega
    have hnext := timaOverflow_time_tima s.time.tima s
    obtain ⟨hpos, hmax⟩ := hinterval
    by_cases hmore : (timaOverflow s.time.tima s).time.tima ≤ c
    · have hle : reloadInterval s ≤ (c - s.time.tima).toNat := by rw [hnext] at hmore; bv_omega
      obtain ⟨hrest, hlast⟩ := last_multiple_step ⟨hpos, hmax⟩ hle
      rw [← hnext] at hrest hlast
      have hih := ih (s := timaOverflow s.time.tima s) hp hc hmore (by omega)
      rw [hrest, reloadInterval_timaOverflow, hlast] at hih
      rw [timaCatchUp_due n hoff hdue]
      exact (overflowed_timaOverflow _ s).trans hih
    · have hnone : (c - s.time.tima).toNat / reloadInterval s = 0 :=
        Nat.div_eq_of_lt (by rw [hnext] at hmore; bv_omega)
      rw [hnone, Nat.zero_mul, BitVec.add_zero]
      exact overflowed_once n hoff hdue fun h => hmore h.2

/-! ## TIMA at the cycle of the write -/

theorem timaRun_stopped (hstopped : timaRuns s.timer = false) :
    timaRun c s = { s with timer := { s.timer with timaLast := c } } := by
  rw [timaRun, hstopped]
  rfl

theorem timaRun_running (hruns : timaRuns s.timer = true) :
    timaRun c s =
      let x := timaCatchUp ((c - s.time.tima).toNat + 1) c s
      { x with timer := { x.timer with tima := timaAdvanced x.params x.timer c, timaLast := c } } := by
  rw [timaRun, hruns]
  rfl

/-- What a write of a timer register leaves of the state TIMA was brought up to. -/
structure BroughtUp (p : Byte) (x t : State) : Prop where
  irq : t.irq = x.irq
  lastOvf : t.timer.lastOvf = x.timer.lastOvf
  tima : p ≠ 0x05 → t.timer.tima = x.timer.tima

theorem ffWrite_broughtUp {p : Byte} (hp : p ∈ [0x04, 0x05, 0x06, 0x07]) (hglitch : s.params.divWriteGlitch = false)
    (v : Byte) (c : Cycle) : ∃ t, ffWrite p v c s = .ok t ∧ BroughtUp p (timaRun c s) t := by
  simp only [List.mem_cons, List.not_mem_nil, or_false] at hp
  obtain rfl | rfl | rfl | rfl := hp
  · have hnone : divGlitch c (timaRun c s) = timaRun c s := by
      rw [divGlitch, (keeps_timaRun c s).params, hglitch]
      rfl
    refine ⟨timerDivWrite c s, rfl, ?_⟩
    rw [timerDivWrite, hnone]
    exact ⟨rfl, rfl, fun _ => rfl⟩
  · exact ⟨timerTimaWrite v c s, rfl, rfl, rfl, absurd rfl⟩
  · exact ⟨timerTmaWrite v c s, rfl, rfl, rfl, fun _ => rfl⟩
  · exact ⟨timerTacWrite (v.extractLsb' 0 3) c s, rfl, rfl, rfl, fun _ => rfl⟩

/-- A timer write after overflows: the last is recorded, and TIMA counts on from it. -/
theorem broughtUp_overflowed {p : Byte} (hruns : timaRuns s.timer = true)
    (h : Overflowed last s (timaCatchUp ((c - s.time.tima).toNat + 1) c s)) (ht : BroughtUp p (timaRun c s) t) :
    t.irq.IF = s.irq.IF ||| irqTimer ∧ t.timer.lastOvf = some last ∧ (p ≠ 0x05 → t.timer.tima =
      timaAdvanced s.params { s.timer with tima := s.timer.tma, timaLast := last, lastOvf := some last } c) := by
  rw [timaRun_running hruns] at ht
  refine ⟨by rw [ht.irq]; exact h.request, ht.lastOvf.trans (congrArg TimerUnit.lastOvf h.timer), fun hne => ?_⟩
  rw [ht.tima hne, ← h.timer, ← h.params]

end

/-- Settles O30, by the overflows that are due at the cycle of the write. -/
theorem timerWritesCatchUp : Obligations.TimerWritesCatchUp := by
  intro s p v c h hc hp hglitch period count reload
  obtain ⟨t, hwrite, ht⟩ := ffWrite_broughtUp (s := s.begun c) hp hglitch v c
  have hexec := exec_ffWrite h hc hwrite
  have hinterval : reloadInterval (s.begun c) = (256 - s.timer.tma.toNat) * period :=
    congrArg ((256 - s.timer.tma.toNat) * ·) (timaPeriod_eq s.params s.timer.tac)
  have hafter {last : Cycle} (hruns : timaRuns s.timer = true)
      (hlast : Overflowed last (s.begun c) (timaCatchUp ((c - s.time.tima).toNat + 1) c (s.begun c))) :
      t.irq.IF = s.irq.IF ||| 0x04 ∧ t.timer.lastOvf = some last ∧
        (p ≠ 0x05 → t.timer.tima = BitVec.ofInt 8 (s.timer.tma.toNat + count c - count last)) := by
    obtain ⟨hIF, hovf, htima⟩ := broughtUp_overflowed (s := s.begun c) hruns hlast ht
    exact ⟨hIF, hovf, fun hne => (htima hne).trans (timaAdvanced_eq ..)⟩
  refine ⟨fun hruns hnone => ⟨t, hexec, ?counted⟩, fun hruns hoff hdue hone => ⟨t, hexec, ?once⟩,
    fun hlegal hruns hoff hdue => ⟨t, hexec, ?overflows⟩, fun hstopped => ⟨t, hexec, ?stopped⟩⟩
  case counted =>
    have hidle : ¬(s.time.tima ≠ disabled ∧ s.time.tima ≤ c) := fun ⟨hoff, hdue⟩ =>
      hnone.elim hoff (BitVec.not_lt.mpr hdue)
    rw [timaRun_running (s := s.begun c) hruns, timaCatchUp_idle (s := s.begun c) _ hidle] at ht
    exact ⟨ht.irq, ht.lastOvf, fun hne => (ht.tima hne).trans (timaAdvanced_eq ..)⟩
  case once =>
    have hnext : (timaOverflow (s.begun c).time.tima (s.begun c)).time.tima = reload := by
      rw [timaOverflow_time_tima, hinterval]
      rfl
    refine hafter hruns (overflowed_once (s := s.begun c) _ hoff hdue ?_)
    rw [hnext]
    exact fun ⟨hagain, hdueAgain⟩ => hone.elim hagain (BitVec.not_lt.mpr hdueAgain)
  case overflows =>
    have hlast := overflowed_timaCatchUp (s := s.begun c) hlegal hc.2 hdue (Nat.lt_succ_self _)
    rw [hinterval] at hlast
    exact hafter hruns hlast
  case stopped =>
    rw [timaRun_stopped (s := s.begun c) hstopped] at ht
    exact ⟨ht.irq, ht.lastOvf, ht.tima⟩

end Sys2Proof.Machine
end

section
/-! PROOFS. The byte a DMA step reads, by source address (42_scheduler.md R237). -/

namespace Sys2Proof.Machine

section
variable {s : State} {a : Nat}

/-! ## The branch of each source range -/

theorem dmaSourceByte_rom0 (ha : a < 0x4000) : dmaSourceByte a s =
    (do return (← s.readArena .rom (s.banks.rombank0.toNat * 0x4000 + a), s)) := if_pos ha

theorem dmaSourceByte_rom (hlo : 0x4000 ≤ a) (hhi : a < 0x8000) : dmaSourceByte a s =
    (do return (← s.readArena .rom (s.banks.rombank.toNat * 0x4000 + (a - 0x4000)), s)) := by
  rw [dmaSourceByte, if_neg (by omega), if_pos hhi]

theorem dmaSourceByte_vram (hlo : 0x8000 ≤ a) (hhi : a < 0xA000) : dmaSourceByte a s =
    (if s.inputs.vramOk then (do return (← s.readArena .vram (s.banks.vrambank.toNat * 0x2000 + (a - 0x8000)), s))
     else .ok s.drawByte) := by
  rw [dmaSourceByte, if_neg (by omega), if_neg (by omega), if_pos hhi]
  rfl

theorem dmaSourceByte_window {r : Region} {bias : Int} (hlo : 0xA000 ≤ a) (hhi : a < 0xC000)
    (hentry : ramR s.geo s.banks = .win r bias) :
    dmaSourceByte a s = (do return (← s.readArena r (bias + a), s)) := by
  rw [dmaSourceByte, if_neg (by omega), if_neg (by omega), if_neg (by omega), if_pos hhi, hentry]

theorem dmaSourceByte_port (hlo : 0xA000 ≤ a) (hhi : a < 0xC000) (hentry : ramR s.geo s.banks = .slow) :
    dmaSourceByte a s = .ok (s.inputs.cartRd, s) := by
  rw [dmaSourceByte, if_neg (by omega), if_neg (by omega), if_neg (by omega), if_pos hhi, hentry]
  rfl

theorem dmaSourceByte_wram0 (hlo : 0xC000 ≤ a) (hhi : a < 0xD000) : dmaSourceByte a s =
    (do return (← s.readArena .wram (a - 0xC000), s)) := by
  rw [dmaSourceByte, if_neg (by omega), if_neg (by omega), if_neg (by omega), if_neg (by omega), if_pos hhi]

theorem dmaSourceByte_wram (hlo : 0xD000 ≤ a) (hhi : a < 0xE000) : dmaSourceByte a s =
    (do return (← s.readArena .wram (s.banks.wramEff * 0x1000 + (a - 0xD000)), s)) := by
  rw [dmaSourceByte, if_neg (by omega), if_neg (by omega), if_neg (by omega), if_neg (by omega), if_neg (by omega),
    if_pos hhi]

theorem dmaSourceByte_above (hlo : 0xE000 ≤ a) : dmaSourceByte a s = .ok s.drawByte := by
  rw [dmaSourceByte, if_neg (by omega), if_neg (by omega), if_neg (by omega), if_neg (by omega), if_neg (by omega),
    if_neg (by omega)]
  rfl

/-- A read of a byte that exists answers it and changes nothing. -/
theorem readArena_answer {r : Region} {i : Int} {j : Nat} (hij : i = j) (hj : j < r.length s.geo) :
    (do return (← s.readArena r i, s)) = (.ok (s.byteAt r j, s) : Except Abort (Byte × State)) := by
  rw [hij, State.readArena_ok (Int.natCast_nonneg j) (Int.ofNat_lt.mpr hj)]
  rfl

end

/-- Settles O38, by the branch of each range and the bounds of legal banks. -/
theorem dmaSourceMap : Obligations.DmaSourceMap := by
  intro s a hl hb gives free
  obtain ⟨-, hwram2, -, hrom0, hrom, hram, hwram⟩ := hb hl
  have hsel : s.banks.wramEff = max s.banks.wrambankSel.toNat 1 := rfl
  have hvrambank := s.banks.vrambank.isLt
  refine ⟨fun ha => ?rom0, fun hlo hhi => ?rom, fun hlo hhi hok => ?vram, fun hlo hhi hdenied => ?denied,
    fun hlo hhi hread hclock => ?port, fun hlo hhi hread hclock hpresent => ?sram, fun hlo hhi hoff => ?sentinel,
    fun hlo hhi => ?wram0, fun hlo hhi => ?wram, dmaSourceByte_above⟩
  case rom0 => exact (dmaSourceByte_rom0 ha).trans (readArena_answer (by omega) (by rw [Region.length]; omega))
  case rom => exact (dmaSourceByte_rom hlo hhi).trans (readArena_answer (by omega) (by rw [Region.length]; omega))
  case vram =>
    exact (dmaSourceByte_vram hlo hhi).trans ((if_pos hok).trans
      (readArena_answer (by omega) (by rw [Region.length]; omega)))
  case denied => exact (dmaSourceByte_vram hlo hhi).trans (if_neg (Bool.eq_false_iff.mp hdenied))
  case port =>
    refine dmaSourceByte_port hlo hhi ?_
    rw [ramR_eq, readEn, rtcEn, hread, hclock]
    rfl
  case sram =>
    have hbank : s.banks.rambank.toNat < s.geo.ramBanks.toNat :=
      hram.resolve_left fun h0 => hpresent (BitVec.eq_of_toNat_eq h0)
    have hentry : ramR s.geo s.banks = .win .sram (s.banks.rambank.toNat * 0x2000 - 0xA000) := by
      rw [ramR_eq, readEn, rtcEn, hread, hclock]
      exact if_neg hpresent
    exact (dmaSourceByte_window hlo hhi hentry).trans (readArena_answer (by omega) (by rw [Region.length]; omega))
  case sentinel =>
    have hentry : ramR s.geo s.banks = .win .disr (-0xA000) := by
      rw [ramR_eq]
      obtain hoff | ⟨hclock, habsent⟩ := hoff
      · exact if_pos hoff
      · rw [rtcEn, hclock, if_pos habsent]
        exact ite_self _
    exact (dmaSourceByte_window hlo hhi hentry).trans (readArena_answer (by omega) (by rw [Region.length]; omega))
  case wram0 =>
    exact (dmaSourceByte_wram0 hlo hhi).trans (readArena_answer (by omega) (by rw [Region.length]; omega))
  case wram =>
    exact (dmaSourceByte_wram hlo hhi).trans (readArena_answer (by omega) (by rw [Region.length]; omega))

end Sys2Proof.Machine
end

section
/-! PROOFS. What EVENT changes outside the unit it dispatches (42_scheduler.md R201, R203, R204), and that it moves that
unit on (R205). -/

namespace Sys2Proof.Machine

/-- What a dispatch of unit `u` can change; a field that it leaves as it was needs no proof. -/
structure DispatchFrame (u : SchedUnit) (s t : State) : Prop where
  frame : t = { s with
    arena := t.arena, banks := { s.banks with oamDmaSrc := t.banks.oamDmaSrc }, table := t.table
    time := t.time, irq := { s.irq with IF := t.irq.IF, halted := t.irq.halted }, frameDone := t.frameDone
    timer := { s.timer with tima := t.timer.tima, timaLast := t.timer.timaLast, lastOvf := t.timer.lastOvf }
    serial := t.serial, dma := { s.dma with dmaPos := t.dma.dmaPos }, draws := t.draws } := by rfl
  time : ∀ v, v ≠ u → t.time.get v = s.time.get v := by exact fun _ _ => rfl
  timer : u ≠ .tima → t.timer = s.timer := by exact fun _ => rfl
  serial : u ≠ .serial → t.serial = s.serial := by exact fun _ => rfl
  frameDone : u ≠ .blit → t.frameDone = s.frameDone := by exact fun _ => rfl
  dma : u ≠ .oamDma → t.dma = s.dma ∧ t.banks = s.banks ∧ t.table = s.table := by exact fun _ => ⟨rfl, rfl, rfl⟩
  draws : u ≠ .oamDma → u ≠ .serial → t.draws = s.draws := by exact fun _ _ => rfl
  quiet : u = .blit ∨ u = .oamDma → t.irq = s.irq := by exact fun _ => rfl
  request : ∀ n, t.irq.IF.getLsbD n ≠ s.irq.IF.getLsbD n →
    (n, u) ∈ [(1, SchedUnit.lyc), (2, .tima), (3, .serial)] := by exact fun _ h => absurd rfl h
  halted : t.irq.halted = true → s.irq.halted = true := by exact id
  bytes : ∀ r i, (u ≠ .oamDma ∨ (r, i) ≠ (Region.hi, s.dma.dmaPos.toNat)) → t.byteAt r i = s.byteAt r i := by
    exact fun _ _ _ => rfl

/-- Raising a request sets its bit and no other. -/
theorem eq_of_getLsbD_or_twoPow {q : BitVec 5} {k n : Nat}
    (h : (q ||| BitVec.twoPow 5 k).getLsbD n ≠ q.getLsbD n) : n = k := by
  by_contra hne
  rw [BitVec.getLsbD_or, BitVec.getLsbD_twoPow, decide_eq_false (Ne.symm hne), Bool.and_false, Bool.or_false] at h
  exact h rfl

theorem irqLcdStatus_eq : irqLcdStatus = BitVec.twoPow 5 1 := rfl
theorem irqTimer_eq : irqTimer = BitVec.twoPow 5 2 := rfl
theorem irqSerial_eq : irqSerial = BitVec.twoPow 5 3 := rfl

/-- The wake rule only clears `halted`. -/
theorem halted_of_wakeIrq {q : Irq} (h : (wakeIrq q).halted = true) : q.halted = true := by
  rw [wakeIrq_halted, Bool.and_eq_true] at h
  exact h.1

/-- Raising a request changes the request bits and `halted`. -/
theorem raiseIrq_frame (m : BitVec 5) (s : State) : s.raiseIrq m = { s with
    irq := { s.irq with IF := (s.raiseIrq m).irq.IF, halted := (s.raiseIrq m).irq.halted } } := by
  rw [State.raiseIrq_irq, wakeIrq_IF, wakeIrq_halted]
  exact congrArg (fun q => { s with irq := q }) (wakeIrq_eq _)

section
variable {u : SchedUnit} {s t : State} {c : Cycle}

theorem DispatchFrame.setTime (h : DispatchFrame u s t) (v : Cycle) : DispatchFrame u s (t.setTime u v) where
  frame := by cases u <;> exact congrArg (State.setTime _ v) h.frame
  time w hw := (Times.get_setTime_other v t hw.symm).trans (h.time w hw)
  timer hu := (State.setTime_timer u v t).trans (h.timer hu)
  serial hu := (State.setTime_serial u v t).trans (h.serial hu)
  frameDone hu := (State.setTime_frameDone u v t).trans (h.frameDone hu)
  dma hu := by rw [State.setTime_dma, State.setTime_banks, State.setTime_table]; exact h.dma hu
  draws hu hu' := (State.setTime_draws u v t).trans (h.draws hu hu')
  quiet hu := (State.setTime_irq u v t).trans (h.quiet hu)
  request := by rw [State.setTime_irq]; exact h.request
  halted := by rw [State.setTime_irq]; exact h.halted
  bytes r i hi := by rw [State.byteAt, State.setTime_arena]; exact h.bytes r i hi

/-- A unit raises its own request, with the wake rule. -/
theorem DispatchFrame.raiseIrq (h : DispatchFrame u s t) {m : BitVec 5} {k : Nat} (hm : m = BitVec.twoPow 5 k)
    (hu : (k, u) ∈ [(1, SchedUnit.lyc), (2, .tima), (3, .serial)]) : DispatchFrame u s (t.raiseIrq m) where
  frame := by
    have hirq := congrArg (fun x : State => { x with
      irq := { x.irq with IF := (t.raiseIrq m).irq.IF, halted := (t.raiseIrq m).irq.halted } }) h.frame
    exact (raiseIrq_frame m t).trans hirq
  time := h.time
  timer := h.timer
  serial := h.serial
  frameDone := h.frameDone
  dma := h.dma
  draws := h.draws
  quiet hquiet := by obtain rfl | rfl := hquiet <;> simp at hu
  request n hn := by
    rw [State.raiseIrq_irq, wakeIrq_IF] at hn
    by_cases ht : t.irq.IF.getLsbD n = s.irq.IF.getLsbD n
    · rw [hm, ← ht] at hn
      rwa [eq_of_getLsbD_or_twoPow hn]
    · exact h.request n ht
  halted hhalted := h.halted (halted_of_wakeIrq (q := { t.irq with IF := t.irq.IF ||| m }) hhalted)
  bytes := h.bytes

/-! ## Each unit -/

theorem dispatchFrame_serialDispatch (c : Cycle) (s : State) : DispatchFrame .serial s (serialDispatch c s) := by
  have hshifted (r : SerialUnit) (n : Nat) : DispatchFrame .serial s { s with serial := r, draws := n } :=
    { serial := absurd rfl, draws := fun _ => absurd rfl }
  rw [serialDispatch_eq]
  dsimp only
  split
  · exact ((hshifted _ _).raiseIrq irqSerial_eq (by decide)).setTime _
  · exact (hshifted _ _).setTime _

theorem dispatchFrame_afterDmaStep (c : Cycle) (v : Byte) (n : Nat) (s : State) :
    DispatchFrame .oamDma s (s.afterDmaStep c v n) where
  time w hw := by
    cases w with
    | oamDma => exact absurd rfl hw
    | blit | serial | tima | lyc => rfl
  dma := absurd rfl
  draws := absurd rfl
  bytes r i hi := Arena.byte_store_other _ _ (hi.resolve_left (absurd rfl)).symm

theorem dispatchFrame_lycDispatch (c : Cycle) (s : State) : DispatchFrame .lyc s (lycDispatch c s) := by
  have hself : DispatchFrame .lyc s s := {}
  unfold lycDispatch
  split
  · exact (hself.raiseIrq irqLcdStatus_eq (by decide)).setTime _
  · exact hself.setTime _

theorem dmaSourceAddr_lt (u : DmaUnit) : dmaSourceAddr u < 0x10000 := by
  have := u.dmaReg.isLt
  have := u.dmaPos.isLt
  rw [dmaSourceAddr]
  omega

section
variable (hl : s.loaded = true) (ht : TableDerived s) (hb : BanksLegal s)
include hl ht hb

/-- A DMA step completes, with some byte. -/
theorem dmaDispatch_step (c : Cycle) : ∃ v n, dmaDispatch c s = .ok (s.afterDmaStep c v n) := by
  obtain ⟨v, x, hread⟩ := dmaSourceByte_total (s := s.setDmaSrc (dmaClass s.dma.dmaReg)) hl hb
    (dmaSourceAddr_lt s.dma)
  rw [dmaSourceByte_state hread] at hread
  exact ⟨v, _, dmaDispatch_eq (ht hl) hread⟩

/-- Every dispatch completes and keeps to its unit. -/
theorem dispatch_frame (u : SchedUnit) (c : Cycle) : ∃ t, dispatch u c s = .ok t ∧ DispatchFrame u s t := by
  cases u with
  | blit => exact ⟨_, rfl, DispatchFrame.setTime { frameDone := absurd rfl } _⟩
  | serial => exact ⟨_, rfl, dispatchFrame_serialDispatch c s⟩
  | oamDma =>
    obtain ⟨v, n, hstep⟩ := dmaDispatch_step hl ht hb c
    exact ⟨_, hstep, dispatchFrame_afterDmaStep c v n s⟩
  | tima => exact ⟨_, rfl, (DispatchFrame.raiseIrq { timer := absurd rfl } irqTimer_eq (by decide)).setTime _⟩
  | lyc => exact ⟨_, rfl, dispatchFrame_lycDispatch c s⟩

end

/-! ## EVENT -/

/-- EVENT on a ready block that meets the invariants: nothing, or one dispatch of the next unit. -/
theorem exec_event_frame (h : Ready s) (hc : CycleOk c s) (hs : Inv s) :
    ∃ x, exec (.event c) s = .next (x.respond (.word (minTime x.time))) ∧
      DispatchFrame (nextUnit s.time) (s.begun c) x ∧ (c < minTime s.time → x = s.begun c) := by
  by_cases hdue : minTime s.time ≤ c
  · obtain ⟨x, hx, hframe⟩ :=
      dispatch_frame (s := s.begun c) h.2.1 hs.table hs.banks (nextUnit s.time) (minTime s.time)
    exact ⟨x, exec_event_due h hc hdue hx, hframe, fun hidle => absurd hdue (BitVec.not_le.mpr hidle)⟩
  · exact ⟨_, exec_event_idle h hc (BitVec.not_le.mp hdue), {}, fun _ => rfl⟩

/-- Settles O32, by what the dispatch of the next unit can change. -/
theorem eventCompletes : Obligations.EventCompletes := by
  intro s c h hc hs
  obtain ⟨x, hexec, hx, hidle⟩ := exec_event_frame h hc hs
  exact ⟨_, hexec, congrArg (State.respond (.word (minTime x.time))) hx.frame, fun hlt => by rw [hidle hlt]; rfl,
    hx.time, hx.timer, hx.serial, hx.frameDone, hx.dma, hx.draws, hx.quiet, hx.request, hx.halted, hx.bytes⟩

/-- Settles O39, for every dispatch moves its unit on. -/
theorem dispatchMovesOn : Obligations.DispatchMovesOn := by
  intro s t c hp h hs hdue hexec hf
  obtain ⟨-, -, hbody⟩ := body_of_exec hexec hf
  obtain ⟨x, htick, -⟩ := Except.bind_ok_inv hbody
  obtain ⟨hcc, hlimit, -⟩ := State.tick_inv htick
  have hc : CycleOk c s := ⟨hcc, hlimit⟩
  obtain ⟨y, hy⟩ := dispatch_completes (s := s.begun c) h.2.1 hs.table hs.banks (nextUnit s.time) (minTime s.time)
  have hmoves := movesOn_dispatch (s := s.begun c) hp (Nat.lt_of_le_of_lt hdue hlimit) hy
  obtain rfl := Host.Outcome.next.inj (hexec.symm.trans (exec_event_due h hc hdue hy))
  exact hmoves.own

end

end Sys2Proof.Machine
end

section
/-! PROOFS. The interrupt commands and the halt gate (43_irq_halt.md R260 to R267), and who clears a request bit
(R258). -/

namespace Sys2Proof.Machine

/-- Settles O53, by the body of each command and what the wake rule leaves. -/
theorem interruptCommands : Obligations.InterruptCommands := by
  intro s m c h quiet
  have hhalt := exec_ready (i := .halt) h rfl
  rw [State.wakeRule, wakeIrq_eq] at hhalt
  refine ⟨hhalt, exec_ready h rfl, fun hc => ⟨exec_ready h ?ei, ?irqIn⟩⟩
  case ei =>
    rw [bodyOf, eiBody, tick_begun hc]
    rfl
  case irqIn =>
    have hbody : bodyOf (.irqIn m c) s.clearOutputs = .ok ((s.begun c).raiseIrq m) := by
      rw [bodyOf, irqInBody, tick_begun hc]
      rfl
    rw [exec_ready h hbody, State.raiseIrq, wakeIrq_eq]
    rfl

/-- Settles O13, for each elementary change keeps a halted CPU quiet. -/
theorem haltGateQuiet : Obligations.HaltGateQuiet := by
  refine ⟨fun h => absurd h Bool.false_ne_true, fun s t hs h => ?step⟩
  case step =>
    obtain ⟨i, inputs, rest, hc⟩ := step_changes h
    exact hc.lift (R := fun s t => HaltQuiet s → HaltQuiet t) (fun _ => id) (fun f g => g ∘ f) Change.haltQuiet hs

/-! ## Requests are held -/

/-- Every request bit set before is set after (43_irq_halt.md R258). -/
def RequestsKept (s t : State) : Prop := ∀ n, s.irq.IF.getLsbD n = true → t.irq.IF.getLsbD n = true

section
variable {s t u : State}

theorem RequestsKept.refl (s : State) : RequestsKept s s := fun _ => id

theorem RequestsKept.trans (h : RequestsKept s t) (k : RequestsKept t u) : RequestsKept s u := fun n => k n ∘ h n

theorem RequestsKept.of_eq (h : t.irq.IF = s.irq.IF) : RequestsKept s t := fun _ hn => by rwa [h]

theorem RequestsKept.of_or {m : BitVec 5} (h : t.irq.IF = s.irq.IF ||| m) : RequestsKept s t := fun n hn => by
  rw [h, BitVec.getLsbD_or, hn, Bool.true_or]

theorem requestsKept_raiseIrq (m : BitVec 5) (s : State) : RequestsKept s (s.raiseIrq m) := .of_or (wakeIrq_IF _)

/-- Bringing TIMA up sets its request or none. -/
theorem CatchesUp.requestsKept (h : CatchesUp s t) : RequestsKept s t := h.request.elim .of_eq .of_or

/-- What a body does after its tick decides. -/
theorem RequestsKept.tick {c : Cycle} (h : s.tick c = .ok t) (k : RequestsKept t u) : RequestsKept s u := by
  obtain ⟨-, -, rfl⟩ := State.tick_inv h
  exact k

/-- A read changes the draw count only. -/
theorem RequestsKept.read (h : t = { s with draws := t.draws }) : RequestsKept s t := by
  rw [h]
  exact .refl s

theorem requestsKept_writeArena {r : Region} {j : Int} {v : Byte} (h : s.writeArena r j v = .ok t) :
    RequestsKept s t := by
  obtain ⟨-, -, rfl⟩ := State.writeArena_inv h
  exact .refl s

theorem requestsKept_writeArenaMaybe {r : Region} {j : Int} {v : Byte} (h : s.writeArenaMaybe r j v = .ok t) :
    RequestsKept s t := by
  obtain ⟨-, -, rfl⟩ := State.writeArenaMaybe_inv h
  exact .refl s

/-- Every bank selection is a check, then new banks and their table (40_bank_window_ops.md R134 to R143). -/
theorem requestsKept_select {bad : Prop} [Decidable bad] {e : Abort} {b : Banks}
    (h : (if bad then .error e else .ok (State.derive { s with banks := b })) = Except.ok t) : RequestsKept s t := by
  split_ifs at h
  cases h
  exact .refl s

/-! ### The units -/

theorem requestsKept_serialDispatch (c : Cycle) (s : State) : RequestsKept s (serialDispatch c s) := by
  rw [serialDispatch_eq]
  dsimp only
  split
  · exact .of_or (wakeIrq_IF _)
  · exact .refl s

theorem requestsKept_dmaDispatch {c : Cycle} (h : dmaDispatch c s = .ok t) : RequestsKept s t := by
  unfold dmaDispatch at h
  obtain ⟨⟨v, x⟩, hread, hrest⟩ := Except.bind_ok_inv h
  obtain ⟨y, hwrite, hend⟩ := Except.bind_ok_inv hrest
  have hx : RequestsKept s x := .of_eq (by rw [dmaSourceByte_state hread]; split <;> rfl)
  have ht : RequestsKept y t := by
    dsimp only at hend
    split at hend <;> (cases hend; exact .refl y)
  exact (hx.trans (requestsKept_writeArena hwrite)).trans ht

theorem requestsKept_lycDispatch (c : Cycle) (s : State) : RequestsKept s (lycDispatch c s) := by
  rw [lycDispatch]
  split
  · exact requestsKept_raiseIrq irqLcdStatus s
  · exact .refl s

theorem requestsKept_dispatch {v : SchedUnit} {c : Cycle} (h : dispatch v c s = .ok t) : RequestsKept s t := by
  cases v with
  | blit => cases h; exact .refl s
  | serial => cases h; exact requestsKept_serialDispatch c s
  | oamDma => exact requestsKept_dmaDispatch h
  | tima => cases h; exact (catchesUp_timaOverflow c s).requestsKept
  | lyc => cases h; exact requestsKept_lycDispatch c s

theorem requestsKept_dispatchDue {c : Cycle} (h : dispatchDue c s = .ok t) : RequestsKept s t := by
  rw [dispatchDue] at h
  split at h
  · exact requestsKept_dispatch h
  · cases h; exact .refl s

/-! ### Bus writes -/

/-- The offset of IF is the one of 30_encoding.md R108. -/
theorem eq_of_ioReg_intFlag : ∀ (cgb : Bool) (p : Byte), ioReg cgb p = .intFlag → p = 0x0F := by decide +kernel

theorem requestsKept_serialControl (v : Byte) (c : Cycle) (s : State) : RequestsKept s (serialControl v c s) := by
  unfold serialControl
  split <;> exact .refl s

section
variable {a : Addr} {p v : Byte} {c : Cycle}

theorem requestsKept_ffWrite (h : ffWrite p v c s = .ok t) (hp : p ≠ 0x0F) : RequestsKept s t := by
  have hrun := catchesUp_timaRun c s
  rw [ffWrite] at h
  cases hreg : ioReg s.geo.isCgb p <;> rw [hreg] at h
  case intFlag => exact absurd (eq_of_ioReg_intFlag _ p hreg) hp
  case sc => cases h; exact requestsKept_serialControl v c s
  case div => cases h; exact (hrun.trans (catchesUp_divGlitch c _)).requestsKept
  case tima | tma | tac => cases h; exact hrun.requestsKept
  case vbk | svbk => exact requestsKept_select h
  case hram => exact requestsKept_writeArena h
  case intEnable => cases h; exact .of_eq (wakeIrq_IF _)
  case sb | dma | delegated => cases h; exact .refl s

theorem requestsKept_contendedWrite (h : contendedWrite a v c s = .ok t) : RequestsKept s t := by
  rw [contendedWrite] at h
  cases hentry : baseW s.geo s.banks (nibble a) <;> rw [hentry] at h
  case win => exact requestsKept_writeArenaMaybe h
  case discard | slow => cases h; exact .refl s

theorem requestsKept_slowWriteVram (h : slowWriteVram a v s = .ok t) : RequestsKept s t := by
  rw [slowWriteVram] at h
  split_ifs at h
  · exact requestsKept_writeArenaMaybe h
  · exact requestsKept_writeArena h
  · cases h; exact .refl s

theorem requestsKept_slowWriteEcho (h : slowWriteEcho a v s = .ok t) : RequestsKept s t := by
  rw [slowWriteEcho] at h
  split_ifs at h
  · exact requestsKept_writeArenaMaybe h
  · exact requestsKept_writeArena h

theorem requestsKept_slowWriteOam (h : slowWriteOam a v s = .ok t) : RequestsKept s t := by
  rw [slowWriteOam] at h
  split_ifs at h
  · exact requestsKept_writeArenaMaybe h
  · exact requestsKept_writeArena h
  · cases h; exact .refl s

/-- Of the addresses of the I/O page only 0xFF0F has the offset of IF. -/
theorem low_ne_intFlag_offset (hio : ¬a.toNat < 0xFF00) (ha : a ≠ 0xFF0F) : a.extractLsb' 0 8 ≠ 0x0F := by
  intro hlow
  rw [← io_address hio, hlow] at ha
  exact ha rfl

theorem requestsKept_slowWrite (h : slowWrite a v c s = .ok t) (ha : a ≠ 0xFF0F) : RequestsKept s t := by
  rw [slowWrite] at h
  split_ifs at h with _ _ _ _ _ _ _ hio
  · cases h; exact .refl s
  · exact requestsKept_slowWriteVram h
  · exact requestsKept_contendedWrite h
  · cases h; exact .refl s
  · exact requestsKept_contendedWrite h
  · exact requestsKept_slowWriteEcho h
  · exact requestsKept_slowWriteOam h
  · cases h; exact .refl s
  · exact requestsKept_ffWrite h (low_ne_intFlag_offset hio ha)

theorem requestsKept_busWrite (h : busWrite a v c s = .ok t) (ha : a ≠ 0xFF0F) : RequestsKept s t := by
  rw [busWrite] at h
  cases hentry : s.writeEntry a <;> rw [hentry] at h
  case win => exact requestsKept_writeArena h
  case discard => cases h; exact .refl s
  case slow => exact requestsKept_slowWrite h ha

end

/-! ### The commands -/

/-- The commands that may clear a request bit (43_irq_halt.md R258, 60_exceptions.md R306). -/
def ClearsRequests (i : Instr) : Prop :=
  (∃ v c, i = .ffWrite 0x0F v c) ∨ (∃ v c, i = .write 0xFF0F v c) ∨ i = .loadState ∨ i = .mreset

theorem requestsKept_body {i : Instr} (h : bodyOf i s = .ok t) (hi : ¬ClearsRequests i) : RequestsKept s t := by
  cases i with
  | reset =>
    simp only [bodyOf, resetBody] at h
    split_ifs at h <;> (cases h; exact .refl s)
  | setRombank0 | setRombank | setRambank | setWrambank | setVrambank => exact requestsKept_select h
  | setOamDmaSrc src =>
    cases hd : DmaSrc.ofCode src.toNat <;> simp only [bodyOf, hd] at h <;> cases h
    exact .refl s
  | read a c =>
    obtain ⟨x, htick, hrest⟩ := Except.bind_ok_inv h
    obtain ⟨⟨v, y⟩, hread, hend⟩ := Except.bind_ok_inv hrest
    have hy : RequestsKept x y := .read (busRead_state hread)
    cases hend
    exact .tick htick hy
  | write a v c =>
    obtain ⟨x, htick, hwrite⟩ := Except.bind_ok_inv h
    exact .tick htick (requestsKept_busWrite hwrite fun ha => hi (.inr (.inl ⟨v, c, ha ▸ rfl⟩)))
  | ffRead p c =>
    obtain ⟨x, htick, hrest⟩ := Except.bind_ok_inv h
    obtain ⟨⟨v, y⟩, hread, hend⟩ := Except.bind_ok_inv hrest
    have hy : RequestsKept x y := .read (ffRead_state hread)
    cases hend
    exact .tick htick hy
  | ffWrite p v c =>
    obtain ⟨x, htick, hwrite⟩ := Except.bind_ok_inv h
    exact .tick htick (requestsKept_ffWrite hwrite fun hp => hi (.inl ⟨v, c, hp ▸ rfl⟩))
  | event c =>
    obtain ⟨x, htick, hrest⟩ := Except.bind_ok_inv h
    obtain ⟨y, hdue, hend⟩ := Except.bind_ok_inv hrest
    have hy := requestsKept_dispatchDue hdue
    cases hend
    exact .tick htick hy
  | mreset => exact absurd (.inr (.inr (.inr rfl))) hi
  | loadState => exact absurd (.inr (.inr (.inl rfl))) hi
  | setDs | lycCfg =>
    obtain ⟨x, htick, hrest⟩ := Except.bind_ok_inv h
    obtain ⟨y, hview, hend⟩ := Except.bind_ok_inv hrest
    obtain ⟨-, rfl⟩ := State.checkLyView_inv hview
    cases hend
    exact .tick htick (.refl _)
  | rebase =>
    simp only [bodyOf, rebaseBody] at h
    split_ifs at h
    cases h
    exact .refl s
  | ei =>
    obtain ⟨x, htick, hend⟩ := Except.bind_ok_inv h
    cases hend
    exact .tick htick (.refl _)
  | irqIn m =>
    obtain ⟨x, htick, hend⟩ := Except.bind_ok_inv h
    cases hend
    exact .tick htick (requestsKept_raiseIrq m x)
  | halt => cases h; exact .of_eq (wakeIrq_IF _)
  | nextEventTime | takeFrame | di | ime | halted | stateSize | saveState => cases h; exact .refl s

/-- Settles O54: a command that is refused or raises leaves the requests, and every body but those of the four keeps
them. -/
theorem requestsHeldUntilCleared : Obligations.RequestsHeldUntilCleared := by
  intro i s t n h hset hclear
  by_contra hi
  have hkept : RequestsKept s t := by
    obtain ⟨-, rfl⟩ | ⟨-, id, info, rfl⟩ | ⟨-, -, hbody⟩ := exec_next h
    · exact .refl s
    · exact .refl s
    · exact requestsKept_body (s := s.clearOutputs) hbody hi
  exact Bool.false_ne_true (hclear.symm.trans (hkept n hset))

end

end Sys2Proof.Machine
end

section
/-! PROOFS. SAVE_STATE's blob, field by field and byte by byte (44_save_state.md R280, R281, R282, R285), and the blobs
LOAD_STATE rejects (R286, 60_exceptions.md R302). -/

namespace Sys2Proof.Machine

/-! ## The layout of a saved state's blob -/

section
variable {s : State}

/-- The flags stand at bits 0 to 5 in the order of R281, and the bits above them are clear. -/
theorem flagsByte_getLsbD (s : State) (n : Nat) : (flagsByte s).getLsbD n =
    [s.ds, s.irq.ime, s.irq.halted, s.frameDone, s.lyc.lycEnable, s.timer.lastOvf.isSome].getD n false := by
  obtain ⟨h0, h1, h2, h3, h4, h5, hhigh⟩ :=
    flags_bits s.timer.lastOvf.isSome s.lyc.lycEnable s.frameDone s.irq.halted s.irq.ime s.ds
  match n with
  | 0 => exact h0
  | 1 => exact h1
  | 2 => exact h2
  | 3 => exact h3
  | 4 => exact h4
  | 5 => exact h5
  | n + 6 =>
    have hclear : (flagsByte s).toNat < 2 ^ (n + 6) :=
      hhigh.trans_le (Nat.pow_le_pow_right Nat.zero_lt_two (Nat.le_add_left 6 n))
    exact Nat.testBit_lt_two_pow hclear

/-- A region's bytes, found at their offset in a list. -/
theorem blobByte_regionBytes (r : Region) {off i : Nat} {pre post : List Byte} (hoff : pre.length = off)
    (hi : i < r.length s.geo) : blobByte (pre ++ (regionBytes r s ++ post)) (off + i) = s.byteAt r i := by
  rw [blobByte_append, if_neg (by omega), hoff, Nat.add_sub_cancel_left, blobByte_append,
    if_pos (by rwa [regionBytes_length])]
  exact regionBytes_getD hi

/-- The bytes of the four regions SAVE_STATE writes (R281). -/
theorem blobByte_saveBlob_regions (s : State) :
    (∀ i, i < 0x200 → blobByte (saveBlob s) (0x40 + i) = s.byteAt .hi i) ∧
    (∀ i, i < 0x4000 → blobByte (saveBlob s) (0x240 + i) = s.byteAt .vram i) ∧
    (∀ i, i < s.geo.wramBanks.toNat * 0x1000 → blobByte (saveBlob s) (0x4240 + i) = s.byteAt .wram i) ∧
    (∀ i, i < s.geo.ramBanks.toNat * 0x2000 →
      blobByte (saveBlob s) (0x4240 + s.geo.wramBanks.toNat * 0x1000 + i) = s.byteAt .sram i) := by
  refine ⟨fun i hlt => ?hi, fun i hlt => ?vram, fun i hlt => ?wram, fun i hlt => ?sram⟩
  case hi =>
    simp only [saveBlob, List.append_assoc]
    exact blobByte_regionBytes .hi (headerBytes_length s) hlt
  case vram =>
    rw [saveBlob, List.append_assoc, List.append_assoc]
    exact blobByte_regionBytes .vram (by simp [Region.length]) hlt
  case wram =>
    rw [saveBlob, List.append_assoc]
    exact blobByte_regionBytes .wram (by simp [Region.length]) hlt
  case sram =>
    rw [saveBlob, ← List.append_nil (regionBytes .sram s)]
    exact blobByte_regionBytes .sram (by simp [Region.length]; omega) hlt

/-- The counter is stored low byte first (R280). -/
theorem blobByte_saveBlob_cc {k : Nat} (hk : k < 4) : blobByte (saveBlob s) k = s.cc.extractLsb' (8 * k) 8 := by
  rw [blobByte_saveBlob (by omega)]
  interval_cases k <;> simp [blobByte, headerBytes, le32, le16]

/-- The fixed ROM bank is stored low byte first (R280). -/
theorem blobByte_saveBlob_rombank0 {k : Nat} (hk : k < 2) :
    blobByte (saveBlob s) (0x0C + k) = s.banks.rombank0.extractLsb' (8 * k) 8 := by
  rw [blobByte_saveBlob (by omega)]
  interval_cases k <;> simp [blobByte, headerBytes, le32, le16]

/-- The reserved bytes are 0 (R281). -/
theorem blobByte_saveBlob_reserved {i : Nat} (hi : i ∈ [0x17, 0x3E, 0x3F]) : blobByte (saveBlob s) i = 0 := by
  simp only [List.mem_cons, List.not_mem_nil, or_false] at hi
  rw [blobByte_saveBlob (by omega)]
  obtain rfl | rfl | rfl := hi <;> simp [blobByte, headerBytes, le32, le16]

end

/-- Settles O57: SAVE_STATE's blob is the header, whose fields are read at their offsets, and the four regions. -/
theorem saveStateLayout : Obligations.SaveStateLayout := by
  intro s hready
  have hh := headerHolds_saveBlob s
  exact ⟨saveBlob s, exec_saveState hready, saveBlob_length s, hh.cc, fun k => blobByte_saveBlob_cc,
    fun k => blobByte_saveBlob_rombank0, fun n => hh.flags ▸ flagsByte_getLsbD s n, hh.IF, hh.IE, hh.lycReg, hh.eiCycle,
    hh.rombank0, hh.rombank, hh.rambank, hh.ramFlags, hh.wrambankSel, hh.vrambank, hh.oamDmaSrc ▸ (ofCode_code _).1,
    hh.dmaPos, hh.dmaReg, hh.blit, hh.serialTime, hh.oamDma, hh.timaTime, hh.lycTime, hh.divBase, hh.timaLast,
    hh.lastOvf, hh.tima, hh.tma, hh.tac, hh.sb, hh.sc, hh.serialBits, blobByte_saveBlob_reserved (by decide),
    blobByte_saveBlob_reserved (by decide), blobByte_saveBlob_reserved (by decide), blobByte_saveBlob_regions s⟩

/-! ## The blobs LOAD_STATE rejects -/

/-- A check of LOAD_STATE decides a condition on the field at the same offset. -/
def Decides (check : Nat × Bool) (cond : Nat × Prop) : Prop := check.1 = cond.1 ∧ (check.2 = true ↔ cond.2)

theorem decides_of_iff {P Q : Prop} [Decidable P] {off : Nat} (h : P ↔ Q) : Decides (off, decide P) (off, Q) :=
  ⟨rfl, decide_eq_true_iff.trans h⟩

/-- A bound that is a power of two says that the bits from there on are clear. -/
theorem decides_highBits {n m off : Nat} (hn : n + m = 8) (x : Byte) :
    Decides (off, decide (x.toNat < 2 ^ n)) (off, x.extractLsb' n m = 0#m) :=
  decides_of_iff (highBits_eq_zero_iff hn x).symm

/-- The first check that fails, in a list in order of offset, is the failing condition of least offset. -/
theorem exists_least_failing {checks : List (Nat × Bool)} {conds : List (Nat × Prop)}
    (hdec : List.Forall₂ Decides checks conds) (hsorted : conds.Pairwise (·.1 < ·.1)) (hbad : ∃ x ∈ conds, ¬x.2) :
    ∃ (off : Nat) (holds : Prop), (off, holds) ∈ conds ∧ ¬holds ∧ (∀ x ∈ conds, x.1 < off → x.2) ∧
      (checks.find? fun c => !c.2).map Prod.fst = some off := by
  induction hdec with
  | nil => simp at hbad
  | @cons check cond checks conds hhead _ ih =>
    obtain ⟨hoff, hiff⟩ := hhead
    obtain ⟨hlt, hsorted⟩ := List.pairwise_cons.mp hsorted
    cases hcheck : check.2 with
    | false =>
      refine ⟨cond.1, cond.2, List.mem_cons_self, fun h => ?_, fun x hx hless => ?_, ?_⟩
      · exact Bool.false_ne_true (hcheck.symm.trans (hiff.mpr h))
      · obtain rfl | hx := List.mem_cons.mp hx
        · exact absurd hless (lt_irrefl _)
        · exact absurd hless (hlt x hx).asymm
      · rw [List.find?_cons_of_pos (by rw [hcheck]; rfl), Option.map_some, hoff]
    | true =>
      have hcond : cond.2 := hiff.mp hcheck
      have hrest : ∃ x ∈ conds, ¬x.2 := by
        obtain ⟨x, hx, hnot⟩ := hbad
        obtain rfl | hx := List.mem_cons.mp hx
        · exact absurd hcond hnot
        · exact ⟨x, hx, hnot⟩
      obtain ⟨off, holds, hmem, hnot, hleast, hfind⟩ := ih hsorted hrest
      refine ⟨off, holds, List.mem_cons_of_mem _ hmem, hnot, fun x hx hless => ?_, ?_⟩
      · obtain rfl | hx := List.mem_cons.mp hx
        · exact hcond
        · exact hleast x hx hless
      · rwa [List.find?_cons_of_neg (by simp [hcheck])]

/-- The WRAM selector's condition in the column's words: its high bits are clear and the bank it selects exists. -/
theorem wrambankSel_valid_iff (x : Byte) (n : Nat) : (x.toNat < 8 ∧ wramBankOf (x.extractLsb' 0 3) < n) ↔
    (x.extractLsb' 3 5 = 0#5 ∧ max x.toNat 1 < n) := by
  rw [highBits_eq_zero_iff (by decide)]
  exact and_congr_right fun hsel => by rw [wramBankOf, toNat_extractLsb'_byte hsel]

/-- The RAM bank's condition asks nothing of a cartridge without RAM. -/
theorem rambank_valid_iff (x n : Byte) : (n = 0 ∨ x < n) ↔ (0 < n.toNat → x.toNat < n.toNat) := by
  rw [← BitVec.toNat_inj, BitVec.lt_def, Nat.pos_iff_ne_zero, imp_iff_not_or, not_not]
  rfl

section
variable {s : State}

/-- LOAD_STATE of a blob of the wrong size answers false (R286). -/
theorem exec_loadState_of_wrongSize (hf : s.faulted = none) (hl : s.loaded = true)
    (hlen : s.inputs.buf.length ≠ stateSize s.geo) :
    exec .loadState s = .next { s with outputs := { rsp := .bit false } } := by
  refine exec_loaded hf hl (by decide) ?_
  have hlen' : hasLength s.inputs.buf (stateSize s.geo) = false :=
    Bool.eq_false_iff.mpr fun h => hlen ((hasLength_iff _ _).mp h)
  exact if_pos hlen'

/-- The body of LOAD_STATE raises with the offset of the first bad field (R302). -/
theorem loadBody_of_badField (hlen : s.inputs.buf.length = stateSize s.geo) {off : Nat}
    (hbad : firstBadField s.params s.geo s.inputs.buf = some off) :
    loadBody s = .error (.raise .stateField (.offset off)) := by
  have hlen' : hasLength s.inputs.buf (stateSize s.geo) = true := (hasLength_iff _ _).mpr hlen
  rw [loadBody, if_neg (by simp [hlen']), hbad]

/-- LOAD_STATE of a blob of the right size with a bad field raises with that field's offset (R286, R302). -/
theorem exec_loadState_of_badField (hf : s.faulted = none) (hl : s.loaded = true)
    (hlen : s.inputs.buf.length = stateSize s.geo) {off : Nat}
    (hbad : firstBadField s.params s.geo s.inputs.buf = some off) :
    exec .loadState s = .next (s.raise (encode .loadState) .stateField (.offset off)) :=
  exec_loaded_raise hf hl (by decide) (loadBody_of_badField (s := s.clearOutputs) hlen hbad)

end

/-- Settles O58: the model's checks decide the conditions of R281 one by one in order of offset, so the first that
fails is the failing condition of least offset. -/
theorem loadStateRejects : Obligations.LoadStateRejects := by
  intro s hf hl b size valid
  refine ⟨exec_loadState_of_wrongSize hf hl, fun hlen hbad => ?_⟩
  have hdec : List.Forall₂ Decides (blobChecks s.params s.geo b) valid := by
    simp only [blobChecks, valid, List.forall₂_cons, List.Forall₂.nil, and_true]
    exact ⟨decides_of_iff .rfl, decides_highBits rfl _, decides_highBits rfl _, decides_of_iff .rfl,
      decides_of_iff .rfl, decides_of_iff (rambank_valid_iff _ _), decides_highBits rfl _,
      decides_of_iff (wrambankSel_valid_iff _ _), decides_highBits rfl _, decides_of_iff .rfl, decides_of_iff .rfl,
      decides_of_iff .rfl, decides_highBits rfl _, decides_of_iff .rfl⟩
  have hsorted : valid.Pairwise (·.1 < ·.1) := by simp [valid]
  obtain ⟨off, holds, hmem, hnot, hleast, hfirst⟩ := exists_least_failing hdec hsorted hbad
  exact ⟨_, off, holds, hmem, hnot, hleast, exec_loadState_of_badField hf hl hlen hfirst, rfl⟩

end Sys2Proof.Machine
end

section
/-! PROOFS. The discipline of faults (60_exceptions.md R300): a command after a fault is refused, and a step that raises
one changes nothing else. -/

namespace Sys2Proof.Machine

/-! ## After a fault -/

/-- A step after a fault refuses its command, whether or not the packet decodes. -/
theorem step_of_faulted {s : State} {k : Command} {rest : List Command} (hc : s.commands = k :: rest)
    (hf : s.faulted ≠ none) : step s = .next (State.refuse { s with commands := rest, inputs := k.inputs }) := by
  rw [step_cons hc]
  cases decode k.packet with
  | ok i => exact (exec_eq i _).trans (runCommand_faulted hf)
  | error e => exact runCommand_faulted hf

/-! ## A raise -/

/-- A command that ends in a fault raised it: a body that succeeds leaves the fault register alone. -/
theorem exec_raised {i : Instr} {s t : State} (h : exec i s = .next t) (hs : s.faulted = none)
    (ht : t.faulted ≠ none) : ∃ id info, t = s.raise (encode i) id info := by
  obtain ⟨hfault, -⟩ | ⟨-, hraise⟩ | ⟨-, -, hbody⟩ := exec_next h
  · exact absurd hs hfault
  · exact hraise
  · obtain ⟨-, hkept, -, -⟩ := body_keeps hbody
    exact absurd (hkept.trans hs) ht

/-- A step that ends in a fault raised it, with the packet it took. -/
theorem step_raised {s t : State} (hs : s.faulted = none) (h : step s = .next t) (ht : t.faulted ≠ none) :
    ∃ k rest id info, s.commands = k :: rest ∧
      t = State.raise k.packet id info { s with commands := rest, inputs := k.inputs } := by
  obtain ⟨k, rest, hc, ⟨i, hd, hexec⟩ | ⟨e, hd, -⟩⟩ := step_cases h
  · obtain ⟨id, info, hraise⟩ := exec_raised hexec hs ht
    obtain ⟨-, hpacket⟩ := encode_of_decode hd
    exact ⟨k, rest, id, info, hc, hpacket ▸ hraise⟩
  · exact ⟨k, rest, _, _, hc, (Host.Outcome.next.inj ((step_of_illegal hc hs hd).symm.trans h)).symm⟩

/-- Settles O6, by the refusal after a fault, and because no command's body touches the fault register. -/
theorem faultDiscipline : Obligations.FaultDiscipline :=
  ⟨fun _ _ _ => step_of_faulted, fun _ _ => step_raised⟩

end Sys2Proof.Machine
end

section
/-! PROOFS. Cycle monotonicity (42_scheduler.md R200): every command with a cycle operand checks and records it first,
and nothing it does after that touches the counter. -/

namespace Sys2Proof.Machine

section
variable {i : Instr} {s t : State} {c : Cycle}

/-! ## What follows the tick leaves the counter alone -/

/-- A read changes the draw count only. -/
theorem cc_of_draws (h : t = { s with draws := t.draws }) : t.cc = s.cc := by rw [h]

theorem DispatchFrame.cc {u : SchedUnit} (h : DispatchFrame u s t) : t.cc = s.cc := by rw [h.frame]

theorem dmaDispatch_cc (h : dmaDispatch c s = .ok t) : t.cc = s.cc := by
  unfold dmaDispatch at h
  obtain ⟨⟨v, x⟩, hread, h⟩ := Except.bind_ok_inv h
  obtain ⟨y, hstore, h⟩ := Except.bind_ok_inv h
  have hcc : y.cc = s.cc := by
    obtain ⟨-, -, rfl⟩ := State.writeArena_inv hstore
    rw [dmaSourceByte_state hread]
    split <;> rfl
  dsimp only at h
  split at h
  · cases h; exact hcc
  · cases h; exact hcc

theorem dispatch_cc {u : SchedUnit} (h : dispatch u c s = .ok t) : t.cc = s.cc := by
  cases u with
  | serial => cases h; exact (dispatchFrame_serialDispatch c s).cc
  | oamDma => exact dmaDispatch_cc h
  | lyc => cases h; exact (dispatchFrame_lycDispatch c s).cc
  | blit | tima => cases h; rfl

theorem dispatchDue_cc (h : dispatchDue c s = .ok t) : t.cc = s.cc := by
  unfold dispatchDue at h
  split at h
  · exact dispatch_cc h
  · cases h; rfl

/-! ## The tick comes first -/

/-- The body of a command with a cycle operand is a tick on that operand, and then a part that keeps the counter. -/
theorem body_ticks_first (h : cycleOperand i = some c) (s : State) :
    ∃ rest : State → Except Abort State, bodyOf i s = s.tick c >>= rest ∧ ∀ x t, rest x = .ok t → t.cc = x.cc := by
  cases i with
  | read a c' =>
    cases h
    refine ⟨_, rfl, fun x t hrest => ?_⟩
    obtain ⟨⟨v, y⟩, hread, hend⟩ := Except.bind_ok_inv hrest
    cases hend
    exact cc_of_draws (t := y) (busRead_state hread)
  | write a v c' =>
    cases h
    exact ⟨_, rfl, fun x t hwrite => (keepsAnswer_busWrite hwrite).cc⟩
  | ffRead p c' =>
    cases h
    refine ⟨_, rfl, fun x t hrest => ?_⟩
    obtain ⟨⟨v, y⟩, hread, hend⟩ := Except.bind_ok_inv hrest
    cases hend
    exact cc_of_draws (t := y) (ffRead_state hread)
  | ffWrite p v c' =>
    cases h
    exact ⟨_, rfl, fun x t hwrite => (keepsAnswer_ffWrite hwrite).cc⟩
  | event c' =>
    cases h
    refine ⟨_, rfl, fun x t hrest => ?_⟩
    obtain ⟨y, hdue, hend⟩ := Except.bind_ok_inv hrest
    cases hend
    exact dispatchDue_cc (t := y) hdue
  | setDs ds c' | lycCfg lyc en c' =>
    cases h
    refine ⟨_, rfl, fun x t hrest => ?_⟩
    obtain ⟨y, hcheck, hend⟩ := Except.bind_ok_inv hrest
    obtain ⟨-, rfl⟩ := State.checkLyView_inv hcheck
    cases hend; rfl
  | ei c' | irqIn m c' =>
    cases h
    exact ⟨_, rfl, fun x t hend => by cases hend; rfl⟩
  | _ => cases h

/-- A body whose cycle operand is illegal raises F_CONTRACT with it. -/
theorem body_of_not_cycleOk (h : cycleOperand i = some c) (hc : ¬CycleOk c s) :
    bodyOf i s = .error (.raise .contract (.cycle c)) := by
  obtain ⟨rest, hbody, -⟩ := body_ticks_first h s
  rw [hbody, State.tick_bad hc, Except.bind_error]

/-- A body that succeeds had a legal cycle operand, and the counter now equals it. -/
theorem cycleOk_and_cc_of_body (h : cycleOperand i = some c) (ht : bodyOf i s = .ok t) : CycleOk c s ∧ t.cc = c := by
  obtain ⟨rest, hbody, hkeeps⟩ := body_ticks_first h s
  obtain ⟨x, htick, hrest⟩ := Except.bind_ok_inv (hbody.symm.trans ht)
  obtain ⟨hcc, hlimit, rfl⟩ := State.tick_inv htick
  exact ⟨⟨hcc, hlimit⟩, hkeeps _ t hrest⟩

end

/-- Settles O8, for the tick comes first in every command with a cycle operand and the rest keeps the counter. -/
theorem cycleOperandChecked : Obligations.CycleOperandChecked := by
  refine ⟨fun i c s hi hready hc => ?illegal, fun i c s t hi hexec hf => ?legal⟩
  case illegal =>
    have hbody := body_of_not_cycleOk (s := s.clearOutputs) hi hc
    exact ⟨_, exec_ready_raise hready hbody, rfl⟩
  case legal =>
    obtain ⟨-, -, hbody⟩ := body_of_exec hexec hf
    exact cycleOk_and_cc_of_body (s := s.clearOutputs) hi hbody

end Sys2Proof.Machine
end
